-- ==== Sys2Proof/Word.lean ====
section
/-! DEFINITION. The word types of the block: the octet of `00_scope.md` rule R9 and the 15-bit length of `10_state.md` rule R27. -/

namespace Sys2Proof

/-- An octet, 8 bits, bit 7 the most significant (R9). -/
abbrev Octet := BitVec 8

/-- A message length, 15 bits: 0 to 32767 (R27, R51). -/
abbrev Len15 := BitVec 15

end Sys2Proof
end

