-- ==== Sys2Proof/Config.lean ====
section
/-! DEFINITION. What the implementation fixes: the constants and the parameters of `00_scope.md` rule R8, the character codes of rule R9, and the free draws that stand for the environment's answers (rules R7 and R183). -/

namespace Sys2Proof

namespace Config

/-- The identity label of R2; no rule depends on it. -/
def identity : String := "kjarvel/hifive1revb_wifi framing engine, source spec v7"

/-- `OPC_SEND` (R8): Header byte0, master sends. -/
def opcSend : Octet := 0x02

/-- `OPC_RECV` (R8): Header byte0, master requests. -/
def opcRecv : Octet := 0x01

/-- `MARK_OUT` (R8): `'A'`, byte3 of an outgoing Length frame. -/
def markOut : Octet := 0x41

/-- `MARK_IN` (R8): `'B'`, expected in byte3 of an incoming Length frame and never checked (R84). -/
def markIn : Octet := 0x42

/-- The value of every reserved octet the block sends (R81, R83; D12). -/
def reserved : Octet := 0x00

/-- `FILLER` (R8, R89). -/
def filler : Octet := 0x00

/-- `LEN_MAX` (R8): the largest representable length. -/
def lenMax : Nat := 32767

/-- `FRAME_LEN` (R8): octets in a Header or a Length frame. -/
def frameLen : Nat := 4

/-- `SENT_LEN` (R8): the length forced when the end sentinel is sent. -/
def sentLen : Len15 := 3

/-- `NORM_MIN` (R8): the least decoded length at which normalisation runs. -/
def normMin : Nat := 4

/-- `NORM_TAIL` (R8): how many last octets normalisation leaves alone. -/
def normTail : Nat := 2

/-- `FMT_BITS` (R8): bits of a serial frame. -/
def fmtBits : Nat := 8

/-- `MAXL_W` (R8): the width of `maxLen`; the spec's own choice is 32 (D18). -/
abbrev maxlW : Nat := 32

/-- Carriage return (R9). -/
def cr : Octet := 0x0D

/-- Line feed (R9). -/
def lf : Octet := 0x0A

/-- Space (R9). -/
def space : Octet := 0x20

/-- The null octet (R9), the terminator of R137. -/
def nul : Octet := 0x00

end Config

/-- The OPEN parameters of R8: fixed for one block, given no value by the spec. -/
structure Params where
  /-- `ENABLE_CMD`, the streaming-enable command. -/
  enableCmd : List Octet
  /-- `END_SENTINEL`, the streaming-end sentinel. -/
  endSentinel : List Octet
  /-- `SETTLE_ITERS`, the count of the settle delay (R177). -/
  settleIters : Nat
  /-- `SHORT_ITERS`, the count of the delay inside the external transport; no rule of the block reads it (R177). -/
  shortIters : Nat
  /-- `DIV_W`, the width of the divider field. -/
  divW : Nat
  /-- `SS_INDEX`, the slave-select index `INIT` selects. -/
  ssIndex : Nat
  /-- `CS_IDLE`, the chip-select idle polarity `INIT` sets. -/
  csIdle : Bool
  /-- `PIN_SET`, the pins `INIT` enables, listed in rising order. -/
  pinSet : List Nat
  /-- `HS_READY_LEVEL`, the electrical level that means Ready; the rules use only the boolean (R181). -/
  hsReadyLevel : Bool
  /-- `SUPPORTS_RECEIVE`, fixed `true`; a configuration with `false` is refused (R218). -/
  supportsReceive : Bool
  deriving DecidableEq, Repr, Inhabited

namespace Config

/-- The parameters the spec leaves OPEN, before their constraints (R8); DESIGN CHOICE, log 1. -/
opaque rawParams : Params

/-- Free draw: whether the transport has a free transmit slot when `LinkSend` asks (R7, R12); log 2. -/
opaque freeTx : Nat → Bool

/-- Free draw: the received octet `LinkRecv` finds valid, or none yet (R7, R12); log 2. -/
opaque freeRx : Nat → Option Octet

/-- Free draw: one sample of the handshake line, `true` meaning Ready (R183); log 2. -/
opaque freeHs : Nat → Bool

/-- Free draw: the peripheral clock frequency `ClockHz` answers (R11); log 2. -/
opaque freeClk : Nat → Nat

/-- Free draw: the contents of `DST` after a reset taken while BUSY (R261); log 11. -/
opaque freeDst : Nat → List Host.Cell

end Config

end Sys2Proof
end

