-- ==== Sys2Proof/Syntax.lean ====
section
/-! DEFINITION. The rows of spec/opcode_table.json as one inductive: the seven wire rows of `30_encoding.md` rule R92 with their fields, and the four command-port operations of rule R93. -/

namespace Sys2Proof

/-- One row of the opcode table. The operands of the four operations are no part of their 2-bit codes: they stand
on the command port (R94). -/
inductive Instr where
  /-- `HDR_SEND`: Header frame `02 00 00 00` (R81, R82). -/
  | hdrSend
  /-- `HDR_RECV`: Header frame `01 00 00 00` (R81, R82). -/
  | hdrRecv
  /-- `LEN_OUT`: outgoing Length frame with `l = L[6:0]` and `h = L[14:7]` (R83). -/
  | lenOut (l : BitVec 7) (h : Octet)
  /-- `LEN_IN`: incoming Length frame; `u`, `v` and `m` are captured and ignored (R84). -/
  | lenIn (u : BitVec 1) (l : BitVec 7) (h v m : Octet)
  /-- `PAY_OUT`: one outgoing payload octet (R88). -/
  | payOut (d : Octet)
  /-- `FILL`: the filler octet sent for one octet to be read (R89). -/
  | fill
  /-- `PAY_IN`: one incoming payload octet (R88). -/
  | payIn (d : Octet)
  /-- `INIT`, code 0b00. -/
  | init
  /-- `SEND`, code 0b01. -/
  | send
  /-- `RECV`, code 0b10. -/
  | recv
  /-- `QUERY`, code 0b11. -/
  | query
  deriving DecidableEq, Repr

/-- What stands on the command port when the host asks for an operation: the 2-bit code and the operands of R94. Only the
operands of the operation named by the code are read. -/
structure Request where
  /-- The 2-bit code of R93. -/
  code : BitVec 2
  /-- `serialClockHz`, of `INIT`. -/
  hz : Nat := 0
  /-- The message, of `SEND`. It is wider than the 15-bit port, so that a message that is too long can be asked for and refused (R234). -/
  msg : List Octet := []
  /-- `maxLen`, of `RECV`. -/
  maxLen : BitVec Config.maxlW := 0
  /-- The destination lent to `RECV`: `none` for the memory lent before, as it stands; else its contents. -/
  dst : Option (List Host.Cell) := none
  deriving DecidableEq, Repr

end Sys2Proof
end

