-- ==== Sys2Proof/Machine/Literals.lean ====
section
/-! DEFINITION. The two literal comparisons of `42_transparent_mode.md` rule R161, and the constraints that `00_scope.md` rule R8 puts on the parameters. -/

namespace Sys2Proof

namespace Machine

/-- Carriage return or line feed: the terminator octets of R161 and the octets R138 replaces. -/
def isEol (b : Octet) : Bool := b == Config.cr || b == Config.lf

/-- `IsEnable(m)` (R161; D7): the message is `ENABLE_CMD`, octet for octet. -/
def isEnable (p : Params) (m : List Octet) : Bool := m == p.enableCmd

/-- `IsEndSentinel(m)` (R161; D6): `END_SENTINEL` followed by nothing but CR and LF octets. -/
def isEndSentinel (p : Params) (m : List Octet) : Bool :=
  decide (3 ≤ m.length) && m.take 3 == p.endSentinel && (m.drop 3).all isEol

/-- `END_SENTINEL` is exactly three octets, none CR or LF (R8). -/
def sentinelOk (s : List Octet) : Bool := s.length == 3 && s.all (fun b => !isEol b)

/-- `ENABLE_CMD` has 1 to 32767 octets and is no end sentinel (R8, R161). -/
def enableOk (p : Params) : Bool :=
  decide (1 ≤ p.enableCmd.length) && decide (p.enableCmd.length ≤ Config.lenMax) && !isEndSentinel p p.enableCmd

/-- Strictly rising: the one form in which a set of numbers is listed. -/
def rising : List Nat → Bool
  | [] => true
  | [_] => true
  | a :: b :: r => decide (a < b) && rising (b :: r)

/-- The parameters meet their constraints (R8, R262 (4)). -/
def paramsOk (p : Params) : Bool :=
  sentinelOk p.endSentinel && enableOk p && decide (1 ≤ p.divW) && rising p.pinSet && p.supportsReceive

/-- The suggested literals of R8 (`"AT+CIPSEND\r\n"`, `"+++"`), from general knowledge: used in tests, and in `legalise` where a
parameter misses its constraint. -/
def suggestedEnable : List Octet := [0x41, 0x54, 0x2B, 0x43, 0x49, 0x50, 0x53, 0x45, 0x4E, 0x44, 0x0D, 0x0A]

/-- See `suggestedEnable`. -/
def suggestedSentinel : List Octet := [0x2B, 0x2B, 0x2B]

/-- Parameters that meet their constraints stay as they are; a parameter that misses its own gets a legal value. So `legalise` of
an unknown record is an unknown record that meets R8. -/
def legalise (p : Params) : Params :=
  let sentinel := if sentinelOk p.endSentinel then p.endSentinel else suggestedSentinel
  { enableCmd := if enableOk { p with endSentinel := sentinel } then p.enableCmd else suggestedEnable
    endSentinel := sentinel
    settleIters := p.settleIters
    shortIters := p.shortIters
    divW := if 1 ≤ p.divW then p.divW else 1
    ssIndex := p.ssIndex
    csIdle := p.csIdle
    pinSet := if rising p.pinSet then p.pinSet else []
    hsReadyLevel := p.hsReadyLevel
    supportsReceive := true }

end Machine

/-- The block's parameters: any values that meet the constraints of R8; nothing in Lean can tell which (log 1). -/
def Config.params : Params := Machine.legalise Config.rawParams

end Sys2Proof
end

