-- ==== Sys2Proof/WellFormed.lean ====
section
/-! DEFINITION. Well-formedness of what comes from outside: an instruction's fields, a request's operands, the parameters. -/

namespace Sys2Proof

/-- Every `Instr` is well formed: the fields have the exact widths of R83, R84 and R88 (bit 7 of an outgoing byte0 has no field), and
every value of a field is legal (R95). -/
def Instr.wf : Instr → Bool
  | .hdrSend => true
  | .hdrRecv => true
  | .lenOut _ _ => true
  | .lenIn _ _ _ _ _ => true
  | .payOut _ => true
  | .fill => true
  | .payIn _ => true
  | .init => true
  | .send => true
  | .recv => true
  | .query => true

/-- A request fits its ports: the message length fits the 15-bit port (R51; D19). -/
def Request.wf (r : Request) : Bool := decide (r.msg.length ≤ Config.lenMax)

/-- The parameters meet the constraints of R8. -/
def Params.wf (p : Params) : Bool := Machine.paramsOk p

end Sys2Proof
end

