-- ==== Sys2Proof/Decode.lean ====
section
/-! DEFINITION. Decoding of the wire rows and of the command code, total on any octets and rejecting by name, and the encoder (`30_encoding.md` rules R81 to R95). -/

namespace Sys2Proof

/-- Where a word stands. The rows of the table overlap as bit patterns (`PAY_OUT`, `FILL` and `PAY_IN` are all one octet, and every four
octets are a `LEN_IN`): a frame is told from another by its place in the message and by its direction (R90). -/
inductive Place where
  /-- The command port. -/
  | command
  /-- Header phase, master to slave. -/
  | header
  /-- Length phase of `SEND`, master to slave. -/
  | lengthOut
  /-- Length phase of `RECV`, slave to master. -/
  | lengthIn
  /-- Payload phase of `SEND`, master to slave. -/
  | payloadOut
  /-- Length or Payload phase of `RECV`, master to slave. -/
  | filler
  /-- Payload phase of `RECV`, slave to master. -/
  | payloadIn
  deriving DecidableEq, Repr

/-- Why octets at a place are no row of the table. -/
inductive Reject where
  /-- Not the number of octets of the frame at that place (R80). -/
  | octetCount
  /-- A Header opcode other than 0x01 and 0x02 (R95). -/
  | headerOpcode
  /-- A reserved Header octet that is not zero (R81). -/
  | headerReserved
  /-- Bit 7 of an outgoing Length byte0 set (R83). -/
  | lengthBit7
  /-- The reserved octet of an outgoing Length frame not zero (R83). -/
  | lengthReserved
  /-- The marker of an outgoing Length frame not `'A'` (R83). -/
  | lengthMarker
  /-- A filler octet that is not zero (R89). -/
  | fillerOctet
  /-- A byte that holds no 2-bit command code (R93). -/
  | commandCode
  deriving DecidableEq, Repr

/-- The command codes of R93 (D22). All four are used. -/
def decodeCommand (c : BitVec 2) : Instr :=
  if c = 0b00 then .init else if c = 0b01 then .send else if c = 0b10 then .recv else .query

/-- Header frame (R81, R82). -/
def decodeHeader (b0 b1 b2 b3 : Octet) : Except Reject Instr :=
  if b1 = Config.reserved ∧ b2 = Config.reserved ∧ b3 = Config.reserved then
    if b0 = Config.opcSend then .ok .hdrSend
    else if b0 = Config.opcRecv then .ok .hdrRecv
    else .error .headerOpcode
  else .error .headerReserved

/-- Outgoing Length frame (R83). -/
def decodeLengthOut (b0 b1 b2 b3 : Octet) : Except Reject Instr :=
  if b0.msb then .error .lengthBit7
  else if b2 ≠ Config.reserved then .error .lengthReserved
  else if b3 ≠ Config.markOut then .error .lengthMarker
  else .ok (.lenOut (b0.setWidth 7) b1)

/-- Incoming Length frame (R84): every four octets are one. -/
def decodeLengthIn (b0 b1 b2 b3 : Octet) : Instr :=
  .lenIn (BitVec.ofBool b0.msb) (b0.setWidth 7) b1 b2 b3

/-- The row that the octets at a place are, in wire order, or why they are none. -/
def decodeAt : Place → List Octet → Except Reject Instr
  | .command, [b] => if b.toNat < 4 then .ok (decodeCommand (b.setWidth 2)) else .error .commandCode
  | .header, [b0, b1, b2, b3] => decodeHeader b0 b1 b2 b3
  | .lengthOut, [b0, b1, b2, b3] => decodeLengthOut b0 b1 b2 b3
  | .lengthIn, [b0, b1, b2, b3] => .ok (decodeLengthIn b0 b1 b2 b3)
  | .payloadOut, [d] => .ok (.payOut d)
  | .filler, [b] => if b = Config.filler then .ok .fill else .error .fillerOctet
  | .payloadIn, [d] => .ok (.payIn d)
  | _, _ => .error .octetCount

/-- The place at which a row stands. -/
def place : Instr → Place
  | .hdrSend => .header
  | .hdrRecv => .header
  | .lenOut _ _ => .lengthOut
  | .lenIn _ _ _ _ _ => .lengthIn
  | .payOut _ => .payloadOut
  | .fill => .filler
  | .payIn _ => .payloadIn
  | .init => .command
  | .send => .command
  | .recv => .command
  | .query => .command

/-- The octets of a row in wire order (R56, R81 to R89); a command code is padded with zeros to one octet (R93). -/
def encode : Instr → List Octet
  | .hdrSend => [Config.opcSend, Config.reserved, Config.reserved, Config.reserved]
  | .hdrRecv => [Config.opcRecv, Config.reserved, Config.reserved, Config.reserved]
  | .lenOut l h => [l.setWidth 8, h, Config.reserved, Config.markOut]
  | .lenIn u l h v m => [(u ++ l : BitVec (1 + 7)), h, v, m]
  | .payOut d => [d]
  | .fill => [Config.filler]
  | .payIn d => [d]
  | .init => [0b00]
  | .send => [0b01]
  | .recv => [0b10]
  | .query => [0b11]

/-- The word form of R91: the first octet on the wire is the most significant. -/
def wordOf : List Octet → Nat
  | [] => 0
  | b :: r => b.toNat * 256 ^ r.length + wordOf r

/-- The `n` octets of a word, the most significant first (R91). -/
def octetsOf : Nat → Nat → List Octet
  | 0, _ => []
  | n + 1, w => BitVec.ofNat 8 (w / 256 ^ n) :: octetsOf n w

/-- One row of spec/opcode_table.json: a word of the row is one whose bits under `mask` are `pattern`. -/
structure TableRow where
  mnemonic : String
  nbits : Nat
  mask : Nat
  pattern : Nat
  at_ : Place
  deriving DecidableEq, Repr

/-- The table's row of an instruction, copied from the table. -/
def tableRow : Instr → TableRow
  | .hdrSend => ⟨"HDR_SEND", 32, 0xFFFFFFFF, 0x02000000, .header⟩
  | .hdrRecv => ⟨"HDR_RECV", 32, 0xFFFFFFFF, 0x01000000, .header⟩
  | .lenOut _ _ => ⟨"LEN_OUT", 32, 0x8000FFFF, 0x00000041, .lengthOut⟩
  | .lenIn _ _ _ _ _ => ⟨"LEN_IN", 32, 0x00000000, 0x00000000, .lengthIn⟩
  | .payOut _ => ⟨"PAY_OUT", 8, 0x00, 0x00, .payloadOut⟩
  | .fill => ⟨"FILL", 8, 0xFF, 0x00, .filler⟩
  | .payIn _ => ⟨"PAY_IN", 8, 0x00, 0x00, .payloadIn⟩
  | .init => ⟨"INIT", 2, 0x3, 0x0, .command⟩
  | .send => ⟨"SEND", 2, 0x3, 0x1, .command⟩
  | .recv => ⟨"RECV", 2, 0x3, 0x2, .command⟩
  | .query => ⟨"QUERY", 2, 0x3, 0x3, .command⟩

/-- The places whose rows have that many bits, the row with the more fixed bits first (log 14: a word alone does not say at which
place it stands, so the most specific row wins; a 2-bit code comes as 2 bits or as a byte). -/
def placesFor (nbits : Nat) : List Place :=
  if nbits = 32 then [.header, .lengthOut, .lengthIn]
  else if nbits = 8 then [.filler, .command, .payloadOut, .payloadIn]
  else if nbits = 2 then [.command]
  else []

/-- The first place at which the octets are a row. -/
def decodeFirst : List Place → List Octet → Option Instr
  | [], _ => none
  | p :: ps, bs =>
    match decodeAt p bs with
    | .ok i => some i
    | .error _ => decodeFirst ps bs

/-- The instruction of a word numbered as spec/opcode_table.json numbers it: a 32-bit row is one word whose bits 31..24 are the first octet
on the wire (R91). -/
def decodeTableWord (nbits w : Nat) : Option Instr :=
  if w < 2 ^ nbits then decodeFirst (placesFor nbits) (octetsOf ((nbits + 7) / 8) w) else none

end Sys2Proof
end

