-- ==== Sys2Proof/Machine/State.lean ====
section
/-! DEFINITION. The state of the block (`10_state.md` rule R20), of the spaces and ports around it (rules R21 and R35) and of its environment, as plain data; the reasons a step can stop; the state after reset (rule R39). -/

namespace Sys2Proof.Machine

/-- `TMODE` (R22): three values; code 3 does not exist. -/
inductive TMode where
  | off
  | on
  | ending
  deriving DecidableEq, Repr, Inhabited

/-- `OP` (R26). -/
inductive Op where
  | none
  | send
  | recv
  | init
  deriving DecidableEq, Repr, Inhabited

/-- The three phases of a message (R25, R90). -/
inductive Phase where
  | hdr
  | len
  | pay
  deriving DecidableEq, Repr, Inhabited

/-- The sub-steps of a phase (R25, R186). -/
inductive Sub where
  | tx
  | rx
  | rel
  | dly
  | hs
  deriving DecidableEq, Repr, Inhabited

/-- `SEQ` (R25): 1 + 1 + 15 + 2 + 1 + 8 = 28 values. -/
inductive Seq where
  | idle
  | mode
  | phase (ph : Phase) (st : Sub)
  | post
  | loop
  | clk
  | cfgw (k : Fin 8)
  deriving DecidableEq, Repr, Inhabited

/-- `FB[0..3]`, the frame buffer (R31). -/
structure FrameBuf where
  b0 : Octet
  b1 : Octet
  b2 : Octet
  b3 : Octet
  deriving DecidableEq, Repr, Inhabited

/-- `CFG.CS_MODE` (R24): `AUTO`, or a mode the spec does not name. -/
inductive CsMode where
  | auto
  | other
  deriving DecidableEq, Repr, Inhabited

/-- `CFG`, the shadow of the transport's configuration (R24). -/
structure Cfg where
  fmtBits : Nat
  fmtMsbFirst : Bool
  fmtLines : Nat
  div : Nat
  csIdle : Bool
  csMode : CsMode
  ssSel : Nat
  pinsEn : List Nat
  deriving DecidableEq, Repr, Inhabited

/-- One `CfgWrite` of `INIT` (R24, R201): the field and its value. -/
inductive CfgWrite where
  | fmtBits (n : Nat)
  | fmtMsbFirst (b : Bool)
  | fmtLines (n : Nat)
  | div (d : Nat)
  | csIdle (b : Bool)
  | csMode (m : CsMode)
  | ssSel (n : Nat)
  | pinsEn (ps : List Nat)
  deriving DecidableEq, Repr

/-- The link-side events of R11: the normative trace (R63; log 4). -/
inductive Event where
  | tx (b : Octet)
  | rx (b : Octet)
  | hs (ready : Bool)
  | csrel
  | dly (n : Nat)
  | clk (f : Nat)
  | cfg (w : CfgWrite)
  deriving DecidableEq, Repr

/-- Why a request was turned away (R234). `LEGACY` is a refusal of the configuration: `Refusal.legacy`. -/
inductive Reason where
  | busy
  | notInitialised
  | badClock
  | divRange
  | tooLong
  deriving DecidableEq, Repr

/-- What an operation returns to the host when it completes: `SEND` the bit `success` (R110), `QUERY` the mode (R205), `INIT` and `RECV` no
value (R130, R195). -/
inductive Reply where
  | initDone
  | sendDone (success : Bool)
  | recvDone
  | mode (t : TMode)
  deriving DecidableEq, Repr

/-- The answers the environment will give, in order (R7, R221), and how many answers were drawn freely because none was listed (log 2).
Agents of R7 (3) to (5); no field is state of the block. -/
structure Env where
  /-- Answers to `LinkSend`: is a transmit slot free. -/
  tx : List Bool
  /-- Answers to `LinkRecv`: the received octet, or none valid yet. -/
  rx : List (Option Octet)
  /-- Samples of the handshake line, `true` meaning Ready. -/
  hs : List Bool
  /-- Answers to `ClockHz`. -/
  clk : List Nat
  /-- The number of free draws so far. -/
  draws : Nat
  deriving DecidableEq, Repr, Inhabited

/-- When the host performs an act: once `BUSY = 0` (R219 duty 2), or after a number of further steps, busy or not (R234 rows `BUSY`, R205). -/
inductive Wait where
  | idle
  | after (n : Nat)
  deriving DecidableEq, Repr

/-- What the host can do to the block (R219, R220, R260). -/
inductive Act where
  /-- Present a request on the command port. -/
  | issue (r : Request)
  /-- The console's policy (R215): ask for a `RECV` with these operands unless the result port holds the mode `On`, as after a `QUERY` that returned it
(DESIGN CHOICE, log 12). -/
  | recvUnlessOn (r : Request)
  /-- Assert and release `rst`. -/
  | rst
  deriving DecidableEq, Repr

/-- One pending act of the host. -/
structure HostAct where
  wait : Wait
  act : Act
  deriving DecidableEq, Repr

/-- A memory lent by the host (R52), as octets by index, in one canonical form: indices strictly rising, no entry that holds what an
unlisted index reads as (log 6). -/
abbrev Memory := List Host.Cell

/-- What an index that is not listed reads as; DESIGN CHOICE, log 6. -/
def memoryDefault : Octet := 0x00

/-- The state of the machine. Only the fields from `tmode` to `csAct` are state of the block (R20). -/
structure State where
  /-- The parameters of R8; no step writes them. -/
  par : Params
  /-- `TMODE` (R22). -/
  tmode : TMode
  /-- `CFG_VALID` (R23). -/
  cfgValid : Bool
  /-- `CFG` (R24). -/
  cfg : Cfg
  /-- `OP` (R26). -/
  op : Op
  /-- `SEQ` (R25). -/
  seq : Seq
  /-- `LEN` (R27). -/
  len : Len15
  /-- `NRD` (R28). -/
  nrd : Len15
  /-- `MAXL` (R29). -/
  maxl : BitVec Config.maxlW
  /-- `CNT` (R30). -/
  cnt : BitVec 15
  /-- `FB[0..3]` (R31). -/
  fb : FrameBuf
  /-- `CS_ACT` (R33). -/
  csAct : Bool
  /-- `MSG` of the `SEND` in progress; its length is `MLEN` (R51, R66). -/
  msg : List Octet
  /-- `DST`, the destination memory (R52). -/
  dst : Memory
  /-- The model's own: `serialClockHz` of the `INIT` in progress (R195; log 16). -/
  hz : Nat
  /-- The model's own: the divider between its computation and `CfgWrite(DIV, d)` (R201; log 16). -/
  div : Nat
  /-- The command port: the request presented now (R93, R94). -/
  port : Option Request
  /-- The result port: what the last completed operation returned (R110, R205); `rst` keeps it (log 5). -/
  ret : Option Reply
  /-- The model's own: the environment (log 2). -/
  env : Env
  /-- The model's own: the host's pending acts, the next first (log 12). -/
  host : List HostAct
  /-- The model's own: the refusals recorded, the last first (R12; log 3). -/
  marks : List Reason
  /-- The model's own: the events so far, the last first (R11; log 4). -/
  trace : List Event
  deriving DecidableEq, Repr

/-- Why the machine stops. The block itself has no fault (R230): each of these is a step the rules give no meaning, in a state that no run
from reset reaches. -/
inductive Fault where
  /-- Raised by a meaning or by the fetch when the sequencer is at no step of that row (R186, R201). Safe: the machine stops. -/
  | outOfPhase
  /-- Raised by the fetch of a payload octet at an index of `MSG` at or above `MLEN` (R51). Safe: the machine stops. -/
  | msgRange
  /-- Raised by a store to an index of `DST` at or above `MAXL` (R52). Safe: the machine stops. -/
  | dstRange
  /-- Raised by the fetch when the frame buffer holds no frame the block sends (R81, R83, R95). Safe: the machine stops. -/
  | badFrame
  deriving DecidableEq, Repr

/-- Why the model gives no meaning. -/
inductive Refusal where
  /-- Raised by an arm of `exec` that has no meaning yet. Safe: the machine stops. -/
  | notModelled (mnemonic : String)
  /-- Raised by `step` in a configuration with `SUPPORTS_RECEIVE = false` (R218, reason `LEGACY` of R234). Safe: the machine stops. -/
  | legacy
  deriving DecidableEq, Repr

/-- `CFG` after reset: the spec gives no value; DESIGN CHOICE, log 5. -/
def Cfg.reset : Cfg :=
  { fmtBits := 0, fmtMsbFirst := false, fmtLines := 0, div := 0, csIdle := false, csMode := .other, ssSel := 0, pinsEn := [] }

/-- An environment with nothing listed: every answer is a free draw (log 2). -/
def Env.free : Env := { tx := [], rx := [], hs := [], clk := [], draws := 0 }

/-- The machine right after reset (R39, R260). `TMODE`, `CFG_VALID`, `OP`, `SEQ` and `CS_ACT` are the spec's; the other registers of the block
hold the values of log 5. -/
def State.reset : State where
  par := Config.params
  tmode := .off
  cfgValid := false
  cfg := Cfg.reset
  op := .none
  seq := .idle
  len := 0
  nrd := 0
  maxl := 0
  cnt := 0
  fb := ⟨0, 0, 0, 0⟩
  csAct := false
  msg := []
  dst := []
  hz := 0
  div := 0
  port := none
  ret := none
  env := Env.free
  host := []
  marks := []
  trace := []

end Sys2Proof.Machine
end

