-- ==== Sys2Proof/Machine/Flags.lean ====
section
/-! DEFINITION. The status signals and the mode machine: `BUSY` (`10_state.md` rule R26), `tmode_q` (`44_init_query.md` rule R205) and `ModeStep` (`42_transparent_mode.md` rule R162). -/

namespace Sys2Proof.Machine

/-- The code of a mode (R22; D21). -/
def TMode.code : TMode → BitVec 2
  | .off => 0
  | .on => 1
  | .ending => 2

/-- `BUSY` (R26). -/
def State.busy (s : State) : Bool := s.op != .none

/-- The output `tmode_q`: the code of `TMODE` at all times (R205). -/
def State.tmodeQ (s : State) : BitVec 2 := s.tmode.code

/-- `Ending` becomes `Off` before the other transitions are looked at (R163). -/
def leaveEnding : TMode → TMode
  | .off => .off
  | .on => .on
  | .ending => .off

/-- The transitions `Off` to `On` and `On` to `Ending` (R164, R165); no other (R166). -/
def modeMove (p : Params) (t : TMode) (m : List Octet) : TMode :=
  match t with
  | .off => if isEnable p m then .on else .off
  | .on => if isEndSentinel p m then .ending else .on
  | .ending => .ending

/-- `ModeStep(T, m)` (R162): the new mode, and whether the length is forced (R167; D8). -/
def modeStep (p : Params) (t : TMode) (m : List Octet) : TMode × Bool :=
  (modeMove p (leaveEnding t) m, isEndSentinel p m)

end Sys2Proof.Machine
end

