-- ==== Sys2Proof/Machine/Operands.lean ====
section
/-! DEFINITION. The operand forms and the assembled quantities: the length encoder and decoder (`30_encoding.md` rules R85 and R86), the length a message is sent with, the payload count, the octet count of a phase, the divider, the frame buffer as octets. -/

namespace Sys2Proof.Machine

/-- The Length frame of `L` as an instruction: `l = L & 0x7F`, `h = L >> 7` (R83, R85). -/
def lengthFrame (len : Len15) : Instr :=
  .lenOut ((len &&& 0x7F).setWidth 7) ((len >>> 7).setWidth 8)

/-- `Enc(L)` (R85): the four octets of the Length frame. -/
def encLen (len : Len15) : List Octet := encode (lengthFrame len)

/-- `Dec(b0, b1) = (b1 << 7) | (b0 & 0x7F)` (R86; D13). -/
def decLen (b0 b1 : Octet) : Len15 :=
  (b1.setWidth 15 <<< 7) ||| ((b0 &&& 0x7F).setWidth 15)

/-- `MLEN`, the 15-bit length of the message on the port (R51). -/
def msgLen (m : List Octet) : Len15 := BitVec.ofNat 15 m.length

/-- The length the mode step fixes: 3 when forced, else `MLEN` (R112, R167). -/
def sendLen (p : Params) (m : List Octet) : Len15 :=
  if isEndSentinel p m then Config.sentLen else msgLen m

/-- `min(decodedLen, maxLen)` (R135), which fits 15 bits because `decodedLen` does (R28). -/
def payloadCount (len : Len15) (maxl : BitVec Config.maxlW) : Len15 :=
  BitVec.ofNat 15 (min len.toNat maxl.toNat)

/-- `N`, the octet count of a phase (R186): 4 for Header and Length, `NRD` or `LEN` for the Payload. -/
def State.octetCount (s : State) : Phase → Nat
  | .hdr => Config.frameLen
  | .len => Config.frameLen
  | .pay =>
    match s.op with
    | .recv => s.nrd.toNat
    | .send => s.len.toNat
    | .none => 0
    | .init => 0

/-- The frame buffer as octets in wire order (R31, R56). -/
def FrameBuf.octets (f : FrameBuf) : List Octet := [f.b0, f.b1, f.b2, f.b3]

/-- `FB[i] <- v`; the buffer has no octet above index 3. -/
def FrameBuf.set (f : FrameBuf) (i : Nat) (v : Octet) : FrameBuf :=
  match i with
  | 0 => { f with b0 := v }
  | 1 => { f with b1 := v }
  | 2 => { f with b2 := v }
  | 3 => { f with b3 := v }
  | _ => f

/-- The buffer that holds a frame of four octets; a list of another length leaves the octets it lacks at zero. -/
def FrameBuf.ofOctets (bs : List Octet) : FrameBuf :=
  ⟨bs.getD 0 0, bs.getD 1 0, bs.getD 2 0, bs.getD 3 0⟩

/-- The frame an instruction puts in the buffer. -/
def FrameBuf.ofInstr (i : Instr) : FrameBuf := FrameBuf.ofOctets (encode i)

/-- `f / (2 × serialClockHz)`, rounding toward zero (R196; D25). -/
def clockQuotient (f hz : Nat) : Nat := f / (2 * hz)

/-- The divider, or why there is none (R196, R203). -/
def divider (divW f hz : Nat) : Except Reason Nat :=
  if clockQuotient f hz = 0 then .error .badClock
  else if clockQuotient f hz - 1 < 2 ^ divW then .ok (clockQuotient f hz - 1)
  else .error .divRange

end Sys2Proof.Machine
end

