-- ==== Sys2Proof/Machine/Ops.lean ====
section
/-! DEFINITION. The named operations over memory, environment and registers that the meanings are made of: the primitives of `00_scope.md` rule R11, the exchange and boundary steps of `43_handshake_cs.md` rule R186, the refusal of rule R12, reset (`70_reset_and_hazards.md` rules R260 and R261). The block takes no exception and returns from none (rules R237 and R238), so there is no exception entry here. -/

namespace Sys2Proof.Machine

/-! ## Memory -/

/-- The canonical form: indices strictly rising, no entry that holds the default. -/
def Memory.wf : Memory → Bool
  | [] => true
  | [(_, v)] => v != memoryDefault
  | (a, v) :: (b, w) :: r => v != memoryDefault && decide (a < b) && Memory.wf ((b, w) :: r)

/-- `MemRead(DST, i, 1)`. -/
def Memory.read (m : Memory) (i : Nat) : Octet :=
  match m with
  | [] => memoryDefault
  | (a, v) :: r => if a = i then v else Memory.read r i

/-- The list with one more cell in front, unless the cell holds the default. -/
def Memory.put (i : Nat) (v : Octet) (r : Memory) : Memory :=
  if v = memoryDefault then r else (i, v) :: r

/-- `MemWrite(DST, i, 1, v)`, keeping the canonical form. -/
def Memory.write (m : Memory) (i : Nat) (v : Octet) : Memory :=
  match m with
  | [] => Memory.put i v []
  | (a, w) :: r =>
    if i < a then Memory.put i v ((a, w) :: r)
    else if a = i then Memory.put i v r
    else (a, w) :: Memory.write r i v

/-- The memory that given cells make, each written in turn. -/
def Memory.ofCells : List Host.Cell → Memory
  | [] => []
  | (a, v) :: r => Memory.write (Memory.ofCells r) a v

/-- CR/LF normalisation of the indices below `n` (R138). -/
def Memory.normalise (m : Memory) : Nat → Memory
  | 0 => m
  | n + 1 =>
    if isEol ((Memory.normalise m n).read n) then (Memory.normalise m n).write n Config.space
    else Memory.normalise m n

/-- How many first octets normalisation covers (R138): `LEN − 2` when `LEN < MAXL` and `LEN >= 4`, else none. -/
def normCount (len : Len15) (maxl : BitVec Config.maxlW) : Nat :=
  if len.toNat < maxl.toNat ∧ Config.normMin ≤ len.toNat then len.toNat - Config.normTail else 0

/-- The post-processing of a cycle (R137, R138): the terminator, then normalisation. -/
def postProcess (m : Memory) (len : Len15) (maxl : BitVec Config.maxlW) : Memory :=
  if len.toNat < maxl.toNat then Memory.normalise (m.write len.toNat Config.nul) (normCount len maxl) else m

/-! ## The environment -/

/-- The transport's answer to `LinkSend` now. -/
def Env.txReady (e : Env) : Bool :=
  match e.tx with
  | b :: _ => b
  | [] => Config.freeTx e.draws

/-- The environment after `LinkSend` asked. -/
def Env.popTx (e : Env) : Env :=
  match e.tx with
  | _ :: r => { e with tx := r }
  | [] => { e with draws := e.draws + 1 }

/-- The transport's answer to `LinkRecv` now: an octet, or none valid yet. -/
def Env.rxAnswer (e : Env) : Option Octet :=
  match e.rx with
  | v :: _ => v
  | [] => Config.freeRx e.draws

/-- The environment after `LinkRecv` asked. -/
def Env.popRx (e : Env) : Env :=
  match e.rx with
  | _ :: r => { e with rx := r }
  | [] => { e with draws := e.draws + 1 }

/-- The handshake line now (R54, R183). -/
def Env.hsSample (e : Env) : Bool :=
  match e.hs with
  | b :: _ => b
  | [] => Config.freeHs e.draws

/-- The environment after a sample. -/
def Env.popHs (e : Env) : Env :=
  match e.hs with
  | _ :: r => { e with hs := r }
  | [] => { e with draws := e.draws + 1 }

/-- What `ClockHz` answers now. -/
def Env.clockHz (e : Env) : Nat :=
  match e.clk with
  | f :: _ => f
  | [] => Config.freeClk e.draws

/-- The environment after `ClockHz` asked. -/
def Env.popClk (e : Env) : Env :=
  match e.clk with
  | _ :: r => { e with clk := r }
  | [] => { e with draws := e.draws + 1 }

/-! ## Registers -/

/-- An event happens (R11). -/
def State.emit (s : State) (e : Event) : State := { s with trace := e :: s.trace }

/-- A refusal is recorded; nothing else changes (R12; log 3). -/
def State.mark (s : State) (r : Reason) : State := { s with marks := r :: s.marks }

/-- The request on the command port is taken off it. -/
def State.clearPort (s : State) : State := { s with port := none }

/-- `SEQ <- q`. -/
def State.goto (s : State) (q : Seq) : State := { s with seq := q }

/-- `OP <- NONE`, `SEQ <- IDLE`, and the result is returned (R116, R139, R202, R263). -/
def State.complete (s : State) (r : Reply) : State := { s with op := .none, seq := .idle, ret := some r }

/-- A refusal found after acceptance: the mark, and back to `IDLE` with nothing returned (R203). -/
def State.abandon (s : State) (r : Reason) : State := { s.mark r with op := .none, seq := .idle }

/-- Entry of a Header phase: `FB` holds the Header frame, `CNT` is cleared (R117, R140). -/
def State.enterHeader (s : State) (h : Instr) : State :=
  { s with fb := FrameBuf.ofInstr h, cnt := 0, seq := .phase .hdr .tx }

/-- Entry of a cycle of `RECV` (R132, R140). `NRD` is cleared, so that it counts this cycle's octets at every step and R37's clause on it
holds before `NRD` is written (DESIGN CHOICE, log 9). -/
def State.startCycle (s : State) : State := State.enterHeader { s with nrd := 0 } .hdrRecv

/-! ## The steps of a phase (R186) -/

/-- `(ph, TX)` with `CNT < N`: `LinkSend(b)`. With no free transmit slot the step is stalled (R12, R185 (a)). -/
def State.txStep (s : State) (ph : Phase) (b : Octet) : State :=
  if s.env.txReady then
    { s with env := s.env.popTx, trace := .tx b :: s.trace, csAct := true, seq := .phase ph .rx }
  else { s with env := s.env.popTx }

/-- `LinkRecv` while no received octet is valid: a stall (R12, R185 (b)). -/
def State.rxStall (s : State) : State := { s with env := s.env.popRx }

/-- `(ph, RX)` once octet `v` is valid: the event, `CNT <- CNT + 1`, and back to `(ph, TX)`. -/
def State.rxTake (s : State) (ph : Phase) (v : Octet) : State :=
  { s with env := s.env.popRx, trace := .rx v :: s.trace, cnt := s.cnt + 1, seq := .phase ph .tx }

/-- `(ph, RX)` where the octet is dropped (R175; D39). -/
def State.rxDiscard (s : State) (ph : Phase) : State :=
  match s.env.rxAnswer with
  | some v => s.rxTake ph v
  | none => s.rxStall

/-- The capture of octet `v` in the Length phase of `RECV` (R133, R134, R186). -/
def State.captureLen (s : State) (v : Octet) : State :=
  let fb := s.fb.set s.cnt.toNat v
  { s.rxTake .len v with fb := fb, len := if s.cnt.toNat = 3 then decLen fb.b0 fb.b1 else s.len }

/-- A store to `DST` inside its bound (R52). -/
def State.dstWrite (s : State) (i : Nat) (v : Octet) : Except Fault State :=
  if i < s.maxl.toNat then .ok { s with dst := s.dst.write i v } else .error .dstRange

/-- The capture of octet `v` in the Payload phase of `RECV` (R136, R186). -/
def State.capturePay (s : State) (v : Octet) : Host.Outcome State Fault Refusal :=
  match s.dstWrite s.cnt.toNat v with
  | .ok t => .next (t.rxTake .pay v)
  | .error f => .fault f

/-- `(ph, REL)`: `CsRelease` (R176). -/
def State.relStep (s : State) (ph : Phase) : State :=
  { s.emit .csrel with csAct := false, seq := .phase ph .dly }

/-- `(ph, DLY)`: `Delay(SETTLE_ITERS)` (R176). -/
def State.dlyStep (s : State) (ph : Phase) : State :=
  (s.emit (.dly s.par.settleIters)).goto (.phase ph .hs)

/-- One `HsSample` (R54): the event, and the environment's next answer is used up. -/
def State.sample (s : State) : State := { s.emit (.hs s.env.hsSample) with env := s.env.popHs }

/-- `(ph, HS)`: one sample; Ready clears `CNT` and goes on, not Ready stays (R176, R186). -/
def State.hsStep (s : State) (after : State → State) : State :=
  if s.env.hsSample then after { s.sample with cnt := 0 } else s.sample

/-! ## Wire rows -/

/-- One step of the transfer of a fixed frame by the master (R113, R114, R132, R186): at `(ph, TX)` octet `CNT` of the frame is sent, at
`(ph, RX)` the octet that comes back is dropped. -/
def sendFrame (o : Op) (ph : Phase) (bs : List Octet) (s : State) : Host.Outcome State Fault Refusal :=
  if s.op = o then
    if s.seq = .phase ph .tx then
      match bs[s.cnt.toNat]? with
      | some b => .next (s.txStep ph b)
      | none => .fault .outOfPhase
    else if s.seq = .phase ph .rx then .next (s.rxDiscard ph)
    else .fault .outOfPhase
  else .fault .outOfPhase

/-! ## Reset and the host -/

/-- The registers of the block as reset leaves them (R39, R260): no event, nothing outside the block touched. The result port keeps what the last
operation returned: the spec does not say what `rst` does to it (DESIGN CHOICE, log 5). -/
def State.resetBlock (s : State) : State :=
  { s with
    tmode := .off, cfgValid := false, cfg := Cfg.reset, op := .none, seq := .idle, len := 0, nrd := 0, maxl := 0, cnt := 0,
    fb := ⟨0, 0, 0, 0⟩, csAct := false, hz := 0, div := 0 }

/-- After a reset taken while BUSY the slave, the transport and `DST` are arbitrary (R261; D29; log 11): the listed answers are dropped, so
that every answer is a free draw, and `DST` is a free memory. -/
def State.scramble (s : State) : State :=
  { s with
    dst := Memory.ofCells (Config.freeDst s.env.draws)
    env := { tx := [], rx := [], hs := [], clk := [], draws := s.env.draws + 1 } }

/-- `rst` (R260, R261). -/
def State.applyReset (s : State) : State :=
  if s.busy then s.scramble.resetBlock else s.resetBlock

/-- The host's next act, if it is due now, and the acts after it (log 12). -/
def State.hostDue (s : State) : Option (Act × List HostAct) :=
  match s.host with
  | [] => none
  | h :: r =>
    match h.wait with
    | .idle => if s.busy then none else some (h.act, r)
    | .after 0 => some (h.act, r)
    | .after (_ + 1) => none

/-- One step passes for an act that waits a number of steps. -/
def tickHost : List HostAct → List HostAct
  | [] => []
  | ⟨.idle, a⟩ :: r => ⟨.idle, a⟩ :: r
  | ⟨.after 0, a⟩ :: r => ⟨.after 0, a⟩ :: r
  | ⟨.after (n + 1), a⟩ :: r => ⟨.after n, a⟩ :: r

/-- See `tickHost`. -/
def State.tick (s : State) : State := { s with host := tickHost s.host }

/-- The host performs an act (R215, R220, R260): a request goes on the command port, or `rst` is asserted. -/
def State.hostStep (s : State) (a : Act) (rest : List HostAct) : State :=
  match a with
  | .issue r => { s with host := rest, port := some r }
  | .recvUnlessOn r =>
    if s.ret = some (.mode .on) then { s with host := rest }
    else { s with host := rest, port := some { r with code := 0b10 } }
  | .rst => State.applyReset { s with host := rest }

/-- `TRANSACT(m, maxLen)` (R97, R216) as acts of the host: `SEND`, `QUERY`, and `RECV` unless the mode is `On`. -/
def transact (m : List Octet) (maxLen : BitVec Config.maxlW) (dst : Option (List Host.Cell)) : List HostAct :=
  [⟨.idle, .issue { code := 0b01, msg := m }⟩,
   ⟨.idle, .issue { code := 0b11 }⟩,
   ⟨.idle, .recvUnlessOn { code := 0b10, maxLen := maxLen, dst := dst }⟩]

end Sys2Proof.Machine
end

