-- ==== Sys2Proof/Machine/Recv.lean ====
section
/-! DEFINITION. The `RECV` operation (`41_receive.md`): acceptance, the boundaries, the payload count, post-processing, the loop and completion. Its octets are the wire rows. -/

namespace Sys2Proof.Machine

/-- The destination a `RECV` is lent (R52): the memory as it stands, or new contents. -/
def lentDst (r : Request) (s : State) : Memory :=
  match r.dst with
  | none => s.dst
  | some cells => Memory.ofCells cells

/-- Acceptance (R131): as `SEND`; then `MAXL <- maxLen`, and the first cycle starts at once, with no sample of the handshake (D15). -/
def acceptRecv (r : Request) (s : State) : State :=
  if s.busy then s.mark .busy
  else if !s.cfgValid then s.mark .notInitialised
  else State.startCycle { s with op := .recv, maxl := r.maxLen, dst := lentDst r s }

/-- The first step after a phase (R186): the payload count after the Length phase (R135), post-processing after the Payload phase. -/
def recvAfter (ph : Phase) (s : State) : State :=
  match ph with
  | .hdr => s.goto (.phase .len .tx)
  | .len => { s with nrd := payloadCount s.len s.maxl, seq := .phase .pay .tx }
  | .pay => s.goto .post

/-- `POST` (R137, R138): only the final contents of `DST` are fixed; `CNT` is left at the normalisation index (R30; log 7). -/
def recvPostStep (s : State) : State :=
  { s with dst := postProcess s.dst s.len s.maxl, cnt := BitVec.ofNat 15 (normCount s.len s.maxl), seq := .loop }

/-- `LOOP` (R139; D37): one more sample; Ready starts a new cycle, not Ready completes. -/
def recvLoopStep (s : State) : State :=
  if s.env.hsSample then s.sample.startCycle else s.sample.complete .recvDone

/-- The steps of `RECV` that move no octet. -/
def recvStep (s : State) : Host.Outcome State Fault Refusal :=
  match s.seq with
  | .phase ph .tx => if s.cnt.toNat < s.octetCount ph then .fault .outOfPhase else .next (s.goto (.phase ph .rel))
  | .phase _ .rx => .fault .outOfPhase
  | .phase ph .rel => .next (s.relStep ph)
  | .phase ph .dly => .next (s.dlyStep ph)
  | .phase ph .hs => .next (s.hsStep (recvAfter ph))
  | .post => .next (recvPostStep s)
  | .loop => .next (recvLoopStep s)
  | .idle => .fault .outOfPhase
  | .mode => .fault .outOfPhase
  | .clk => .fault .outOfPhase
  | .cfgw _ => .fault .outOfPhase

/-- `RECV` (R140): acceptance of the request on the command port, or the next step of the `RECV` in progress. -/
def execRecv (s : State) : Host.Outcome State Fault Refusal :=
  match s.port with
  | some r => .next (acceptRecv r s.clearPort)
  | none => if s.op = .recv then recvStep s else .fault .outOfPhase

end Sys2Proof.Machine
end

