-- ==== Sys2Proof/Machine/Send.lean ====
section
/-! DEFINITION. The `SEND` operation (`40_send.md`): acceptance, the mode step, the boundaries and completion. Its octets are the wire rows. -/

namespace Sys2Proof.Machine

/-- Acceptance (R111, R234, R236): `TOO_LONG` is a request the port cannot carry (log 13), then `BUSY` is tested before
`NOT_INITIALISED`. A refused `SEND` changes nothing but the mark. -/
def acceptSend (r : Request) (s : State) : State :=
  if !r.wf then s.mark .tooLong
  else if s.busy then s.mark .busy
  else if !s.cfgValid then s.mark .notInitialised
  else { s with op := .send, seq := .mode, msg := r.msg }

/-- Mode step (R112): `TMODE` and `LEN` are fixed on the whole message, and the Header phase is entered (R117). -/
def sendModeStep (s : State) : State :=
  State.enterHeader { s with tmode := (modeStep s.par s.tmode s.msg).1, len := sendLen s.par s.msg } .hdrSend

/-- The first step after a phase (R186): `FB` holds the Length frame after the Header phase; `SEND` completes after the Payload
phase with `success = 1` (R116). -/
def sendAfter (ph : Phase) (s : State) : State :=
  match ph with
  | .hdr => { s with fb := FrameBuf.ofInstr (lengthFrame s.len), seq := .phase .len .tx }
  | .len => s.goto (.phase .pay .tx)
  | .pay => s.complete (.sendDone true)

/-- The steps of `SEND` that move no octet. -/
def sendStep (s : State) : Host.Outcome State Fault Refusal :=
  match s.seq with
  | .mode => .next (sendModeStep s)
  | .phase ph .tx => if s.cnt.toNat < s.octetCount ph then .fault .outOfPhase else .next (s.goto (.phase ph .rel))
  | .phase _ .rx => .fault .outOfPhase
  | .phase ph .rel => .next (s.relStep ph)
  | .phase ph .dly => .next (s.dlyStep ph)
  | .phase ph .hs => .next (s.hsStep (sendAfter ph))
  | .idle => .fault .outOfPhase
  | .post => .fault .outOfPhase
  | .loop => .fault .outOfPhase
  | .clk => .fault .outOfPhase
  | .cfgw _ => .fault .outOfPhase

/-- `SEND` (R117): acceptance of the request on the command port, or the next step of the `SEND` in progress. -/
def execSend (s : State) : Host.Outcome State Fault Refusal :=
  match s.port with
  | some r => .next (acceptSend r s.clearPort)
  | none => if s.op = .send then sendStep s else .fault .outOfPhase

end Sys2Proof.Machine
end

