-- ==== Sys2Proof/Machine/System.lean ====
section
/-! DEFINITION. The `INIT` and `QUERY` operations (`44_init_query.md`). -/

namespace Sys2Proof.Machine

/-- Acceptance (R201, R203): `BUSY` is tested before `BAD_CLOCK` (R236), and a zero clock is refused before the clock is read. -/
def acceptInit (r : Request) (s : State) : State :=
  if s.busy then s.mark .busy
  else if r.hz = 0 then s.mark .badClock
  else { s with op := .init, seq := .clk, hz := r.hz }

/-- `CLK` (R196, R201): the clock is read and the divider computed; a divider that does not exist is a refusal after the event (R203). -/
def clkStep (s : State) : State :=
  let f := s.env.clockHz
  let t := { s.emit (.clk f) with env := s.env.popClk }
  match divider s.par.divW f s.hz with
  | .ok d => { t with div := d, seq := .cfgw 0 }
  | .error r => t.abandon r

/-- The `k`-th `CfgWrite` of `INIT` (R201). -/
def cfgWrite (s : State) (k : Fin 8) : CfgWrite :=
  match k with
  | 0 => .fmtBits Config.fmtBits
  | 1 => .fmtMsbFirst true
  | 2 => .fmtLines 1
  | 3 => .div s.div
  | 4 => .csIdle s.par.csIdle
  | 5 => .csMode .auto
  | 6 => .ssSel s.par.ssIndex
  | 7 => .pinsEn s.par.pinSet

/-- A `CfgWrite` overwrites its field (R60). -/
def Cfg.store (c : Cfg) (w : CfgWrite) : Cfg :=
  match w with
  | .fmtBits n => { c with fmtBits := n }
  | .fmtMsbFirst b => { c with fmtMsbFirst := b }
  | .fmtLines n => { c with fmtLines := n }
  | .div d => { c with div := d }
  | .csIdle b => { c with csIdle := b }
  | .csMode m => { c with csMode := m }
  | .ssSel n => { c with ssSel := n }
  | .pinsEn ps => { c with pinsEn := ps }

/-- `CfgWrite(field, v)`: the event and the shadow (R24). -/
def State.writeCfg (s : State) (w : CfgWrite) : State := { s.emit (.cfg w) with cfg := s.cfg.store w }

/-- `CFGW(k)` (R201); the eighth write completes `INIT` with `CFG_VALID <- 1` (R202). -/
def cfgStep (s : State) (k : Fin 8) : State :=
  if k = 7 then State.complete { s.writeCfg (cfgWrite s k) with cfgValid := true } .initDone
  else (s.writeCfg (cfgWrite s k)).goto (.cfgw (k + 1))

/-- The steps of `INIT`. -/
def initStep (s : State) : Host.Outcome State Fault Refusal :=
  match s.seq with
  | .clk => .next (clkStep s)
  | .cfgw k => .next (cfgStep s k)
  | .idle => .fault .outOfPhase
  | .mode => .fault .outOfPhase
  | .phase _ _ => .fault .outOfPhase
  | .post => .fault .outOfPhase
  | .loop => .fault .outOfPhase

/-- `INIT` (R201): acceptance of the request on the command port, or the next step of the `INIT` in progress. -/
def execInit (s : State) : Host.Outcome State Fault Refusal :=
  match s.port with
  | some r => .next (acceptInit r s.clearPort)
  | none => if s.op = .init then initStep s else .fault .outOfPhase

/-- `QUERY` (R205): returns `TMODE`, in every state; it writes no register of the block and has no event. -/
def execQuery (s : State) : Host.Outcome State Fault Refusal :=
  .next { s.clearPort with ret := some (.mode s.tmode) }

end Sys2Proof.Machine
end

