-- ==== Sys2Proof/Machine/Wire.lean ====
section
/-! DEFINITION. The meanings of the seven wire rows: each is one TX or one RX step of the row's octets (`43_handshake_cs.md` rules R175 and R186). A row outside its phase has no meaning: `Fault.outOfPhase` (log 10). -/

namespace Sys2Proof.Machine

/-- `HDR_SEND`: Header phase of `SEND` (R82, R113). -/
def execHdrSend (s : State) : Host.Outcome State Fault Refusal :=
  sendFrame .send .hdr (encode .hdrSend) s

/-- `HDR_RECV`: Header phase of a `RECV` cycle (R82, R132; D14). -/
def execHdrRecv (s : State) : Host.Outcome State Fault Refusal :=
  sendFrame .recv .hdr (encode .hdrRecv) s

/-- `LEN_OUT`: Length phase of `SEND` (R83, R114). -/
def execLenOut (l : BitVec 7) (h : Octet) (s : State) : Host.Outcome State Fault Refusal :=
  sendFrame .send .len (encode (.lenOut l h)) s

/-- `LEN_IN`: octet `CNT` of the frame is captured; at the fourth `LEN` is decoded (R133, R134, R84). -/
def execLenIn (u : BitVec 1) (l : BitVec 7) (h v m : Octet) (s : State) : Host.Outcome State Fault Refusal :=
  if s.op = .recv ∧ s.seq = .phase .len .rx then
    match (encode (.lenIn u l h v m))[s.cnt.toNat]? with
    | some b => .next (s.captureLen b)
    | none => .fault .outOfPhase
  else .fault .outOfPhase

/-- `PAY_OUT`: one payload octet of `SEND`, sent unchanged (R88, R115). -/
def execPayOut (d : Octet) (s : State) : Host.Outcome State Fault Refusal :=
  if s.op = .send then
    if s.seq = .phase .pay .tx then
      if s.cnt.toNat < s.octetCount .pay then .next (s.txStep .pay d) else .fault .outOfPhase
    else if s.seq = .phase .pay .rx then .next (s.rxDiscard .pay)
    else .fault .outOfPhase
  else .fault .outOfPhase

/-- The phases in which `RECV` sends filler: Length and Payload (R89). -/
def fillPhase (q : Seq) : Option (Phase × Sub) :=
  match q with
  | .phase .len .tx => some (.len, .tx)
  | .phase .len .rx => some (.len, .rx)
  | .phase .pay .tx => some (.pay, .tx)
  | .phase .pay .rx => some (.pay, .rx)
  | _ => none

/-- The read half of a filler exchange: a stall until an octet is valid, then its capture (R133, R136). -/
def fillRead (ph : Phase) (s : State) : Host.Outcome State Fault Refusal :=
  match s.env.rxAnswer with
  | none => .next s.rxStall
  | some v => if ph = .len then .next (s.captureLen v) else s.capturePay v

/-- `FILL`: the filler octet is sent for each octet to be read, and its exchange waits for the octet (R89, R133, R136). -/
def execFill (s : State) : Host.Outcome State Fault Refusal :=
  if s.op = .recv then
    match fillPhase s.seq with
    | some (ph, .tx) =>
      if s.cnt.toNat < s.octetCount ph then .next (s.txStep ph Config.filler) else .fault .outOfPhase
    | some (ph, _) => fillRead ph s
    | none => .fault .outOfPhase
  else .fault .outOfPhase

/-- `PAY_IN`: one payload octet of `RECV`, stored at `DST[CNT]` (R136; D16). -/
def execPayIn (d : Octet) (s : State) : Host.Outcome State Fault Refusal :=
  if s.op = .recv ∧ s.seq = .phase .pay .rx then s.capturePay d else .fault .outOfPhase

end Sys2Proof.Machine
end

