-- ==== Sys2Proof/Machine/Dispatch.lean ====
section
/-! DEFINITION. One arm per row of the opcode table. -/

namespace Sys2Proof.Machine

def exec (i : Instr) (s : State) : Host.Outcome State Fault Refusal :=
  match i with
  | .hdrSend => Sys2Proof.Machine.execHdrSend s
  | .hdrRecv => Sys2Proof.Machine.execHdrRecv s
  | .lenOut l h => Sys2Proof.Machine.execLenOut l h s
  | .lenIn u l h v m => Sys2Proof.Machine.execLenIn u l h v m s
  | .payOut d => Sys2Proof.Machine.execPayOut d s
  | .fill => Sys2Proof.Machine.execFill s
  | .payIn d => Sys2Proof.Machine.execPayIn d s
  | .init => Sys2Proof.Machine.execInit s
  | .send => Sys2Proof.Machine.execSend s
  | .recv => Sys2Proof.Machine.execRecv s
  | .query => Sys2Proof.Machine.execQuery s

end Sys2Proof.Machine
end

