-- ==== Sys2Proof/Machine/Fetch.lean ====
section
/-! DEFINITION. Which row the engine runs next (`10_state.md` rule R25: `SEQ`, with `OP` and `CNT`, determines the next event), and the state in which a given row is the next one. The block has no program counter: a row is read from the frame buffer, from `MSG`, from the link, or from the command port. -/

namespace Sys2Proof.Machine

/-- What the sequencer has to do next. -/
inductive Fetch where
  /-- Nothing: the block is idle. -/
  | idle
  /-- One step of a row. -/
  | run (i : Instr)
  /-- No row: a state that no run reaches. -/
  | bad (f : Fault)
  deriving DecidableEq, Repr

/-- The frame the octets at a place are. -/
def fetchFrame (p : Place) (bs : List Octet) : Fetch :=
  match decodeAt p bs with
  | .ok i => .run i
  | .error _ => .bad .badFrame

/-- The row `SEND` is transferring in a phase (R186): the frame in `FB`, or octet `CNT` of `MSG`. -/
def sendRow (s : State) (ph : Phase) : Fetch :=
  match ph with
  | .hdr => fetchFrame .header s.fb.octets
  | .len => fetchFrame .lengthOut s.fb.octets
  | .pay =>
    match s.msg[s.cnt.toNat]? with
    | some d => fetchFrame .payloadOut [d]
    | none => .bad .msgRange

/-- The row `RECV` sends in a phase (R186): the Header frame in `FB`, or filler. -/
def recvRow (s : State) (ph : Phase) : Fetch :=
  match ph with
  | .hdr => fetchFrame .header s.fb.octets
  | .len => fetchFrame .filler [Config.filler]
  | .pay => fetchFrame .filler [Config.filler]

/-- The row `RECV` reads in a phase (R186). In the Length phase it is the frame as `FB` will hold it once the octet is captured. While no octet is
valid the filler exchange is still in progress. -/
def recvReadRow (s : State) (ph : Phase) : Fetch :=
  match ph with
  | .hdr => fetchFrame .header s.fb.octets
  | .len =>
    match s.env.rxAnswer with
    | some v => fetchFrame .lengthIn (s.fb.set s.cnt.toNat v).octets
    | none => .run .fill
  | .pay =>
    match s.env.rxAnswer with
    | some v => fetchFrame .payloadIn [v]
    | none => .run .fill

/-- The row of the next step of the operation in progress (R117, R140, R186, R201): a wire row where an octet moves, else the operation. -/
def engineFetch (s : State) : Fetch :=
  match s.op with
  | .none => if s.seq = .idle then .idle else .bad .outOfPhase
  | .init => .run .init
  | .send =>
    match s.seq with
    | .phase ph .tx => if s.cnt.toNat < s.octetCount ph then sendRow s ph else .run .send
    | .phase ph .rx => sendRow s ph
    | _ => .run .send
  | .recv =>
    match s.seq with
    | .phase ph .tx => if s.cnt.toNat < s.octetCount ph then recvRow s ph else .run .recv
    | .phase ph .rx => recvReadRow s ph
    | _ => .run .recv

/-- The request that asks for the operation with a code, its operands zero. -/
def plainRequest (c : BitVec 2) : Request := { code := c }

/-- `s` with a row as the next thing the machine does (log 15): a command code on the command port; a wire row with the sequencer at the first
step that moves it and its octets where the fetch finds them; for a row the slave sends, its last octet on the link. -/
def loadRow (s : State) (i : Instr) : State :=
  match i with
  | .hdrSend =>
    { s with port := none, host := [], op := .send, seq := .phase .hdr .tx, cnt := 0, fb := FrameBuf.ofInstr i
             env := { s.env with tx := true :: s.env.tx } }
  | .hdrRecv =>
    { s with port := none, host := [], op := .recv, seq := .phase .hdr .tx, cnt := 0, fb := FrameBuf.ofInstr i
             env := { s.env with tx := true :: s.env.tx } }
  | .lenOut l h =>
    { s with port := none, host := [], op := .send, seq := .phase .len .tx, cnt := 0, fb := FrameBuf.ofInstr i, len := h ++ l
             env := { s.env with tx := true :: s.env.tx } }
  | .lenIn _ _ _ _ m =>
    { s with port := none, host := [], op := .recv, seq := .phase .len .rx, cnt := 3, fb := FrameBuf.ofInstr i
             env := { s.env with rx := some m :: s.env.rx } }
  | .payOut d =>
    { s with port := none, host := [], op := .send, seq := .phase .pay .tx, cnt := 0, len := 1, msg := [d]
             env := { s.env with tx := true :: s.env.tx } }
  | .fill =>
    { s with port := none, host := [], op := .recv, seq := .phase .len .tx, cnt := 0
             env := { s.env with tx := true :: s.env.tx } }
  | .payIn d =>
    { s with port := none, host := [], op := .recv, seq := .phase .pay .rx, cnt := 0, len := 1, nrd := 1, maxl := 1
             env := { s.env with rx := some d :: s.env.rx } }
  | .init => { s with port := some (plainRequest 0b00) }
  | .send => { s with port := some (plainRequest 0b01) }
  | .recv => { s with port := some (plainRequest 0b10) }
  | .query => { s with port := some (plainRequest 0b11) }

end Sys2Proof.Machine
end

