-- ==== Sys2Proof/Machine/Step.lean ====
section
/-! DEFINITION. One step of the machine (`00_scope.md` rule R12). -/

namespace Sys2Proof.Machine

/-- One step of the engine, or an idle step in which nothing happens (R260). A waiting act of the host counts the step. -/
def engineStep (s : State) : Host.Outcome State Fault Refusal :=
  match engineFetch s with
  | .idle => .next s.tick
  | .run i => exec i s.tick
  | .bad f => .fault f

/-- One step. A configuration without receive is refused (R218). A request on the command port is taken first, then an act of the host that is
due, then the operation in progress goes on. -/
def step (s : State) : Host.Outcome State Fault Refusal :=
  if s.par.supportsReceive then
    match s.port with
    | some r => exec (decodeCommand r.code) s
    | none =>
      match s.hostDue with
      | some (a, rest) => .next (s.hostStep a rest)
      | none => engineStep s
  else .refused .legacy

/-- `s` with the instruction of a table word where `step` takes its next instruction from (log 15); a word that is no row changes nothing. -/
def State.withFetchWord (s : State) (nbits w : Nat) : State :=
  match decodeTableWord nbits w with
  | some i => loadRow s i
  | none => s

end Sys2Proof.Machine
end

