-- ==== Sys2Proof/Safety.lean ====
section
/-! DEFINITION. What counts as a good state and a safe run, in the terms the statements use: the invariants of `10_state.md` rule R37 and of the rules it rests on, the order of events of `20_memory.md` rule R63, the events and the destination of a whole operation. -/

namespace Sys2Proof

open Machine

/-- `SEQ` fits `OP` (R25, R26); in particular `SEQ = IDLE` exactly when `OP = NONE` (R37). -/
def seqFits (o : Op) (q : Seq) : Bool :=
  match q with
  | .idle => o == .none
  | .mode => o == .send
  | .phase _ _ => o == .send || o == .recv
  | .post => o == .recv
  | .loop => o == .recv
  | .clk => o == .init
  | .cfgw _ => o == .init

/-- Where `CS_ACT` may be 1 (R37). -/
def csMayAct (q : Seq) : Bool :=
  match q with
  | .phase _ .tx => true
  | .phase _ .rx => true
  | .phase _ .rel => true
  | _ => false

/-- `CNT` is at most the octet count of the current phase (R37), and below it while an octet is being read. -/
def countFits (s : State) : Bool :=
  match s.seq with
  | .phase ph .rx => Nat.blt s.cnt.toNat (s.octetCount ph)
  | .phase ph _ => Nat.ble s.cnt.toNat (s.octetCount ph)
  | _ => true

/-- `FB` holds the frame of the phase (R117, R140). -/
def frameFits (s : State) : Bool :=
  match s.op, s.seq with
  | .send, .phase .hdr _ => s.fb == FrameBuf.ofInstr .hdrSend
  | .send, .phase .len _ => s.fb == FrameBuf.ofInstr (lengthFrame s.len)
  | .recv, .phase .hdr _ => s.fb == FrameBuf.ofInstr .hdrRecv
  | _, _ => true

/-- In `SEND` the message fits its port, and from the mode step on `LEN` is the length that step fixed (R51, R112). -/
def sendFits (s : State) : Bool :=
  s.op != .send || (Nat.ble s.msg.length Config.lenMax && (s.seq == .mode || s.len == sendLen s.par s.msg))

/-- In `RECV`, at every step, `NRD <= LEN` and `NRD <= MAXL` (R37); from the Payload phase on `NRD = min(LEN, MAXL)` (R135), and before it `NRD`
is clear (log 9). -/
def nrdFits (s : State) : Bool :=
  s.op != .recv ||
    (Nat.ble s.nrd.toNat s.len.toNat && Nat.ble s.nrd.toNat s.maxl.toNat &&
      match s.seq with
      | .phase .pay _ => s.nrd == payloadCount s.len s.maxl
      | .post => s.nrd == payloadCount s.len s.maxl
      | .loop => s.nrd == payloadCount s.len s.maxl
      | _ => s.nrd == 0)

/-- The first `n` of the eight fields hold values `INIT` writes (R24's table, R201). -/
def cfgLegalBelow (p : Params) (c : Cfg) (n : Nat) : Bool :=
  (Nat.ble n 0 || c.fmtBits == Config.fmtBits) && (Nat.ble n 1 || c.fmtMsbFirst) && (Nat.ble n 2 || c.fmtLines == 1) &&
  (Nat.ble n 3 || Nat.blt c.div (2 ^ p.divW)) && (Nat.ble n 4 || c.csIdle == p.csIdle) &&
  (Nat.ble n 5 || c.csMode == .auto) && (Nat.ble n 6 || c.ssSel == p.ssIndex) && (Nat.ble n 7 || c.pinsEn == p.pinSet)

/-- All eight fields hold values `INIT` writes (R24). -/
def cfgLegal (p : Params) (c : Cfg) : Bool := cfgLegalBelow p c 8

/-- Once `CFG_VALID = 1` the configuration is legal (R23, R24); before `CFGW(k)` the first `k` fields are, and the divider fits (R201, R203). -/
def cfgFits (s : State) : Bool :=
  (!s.cfgValid || cfgLegal s.par s.cfg) &&
    match s.seq with
    | .cfgw k => Nat.blt s.div (2 ^ s.par.divW) && cfgLegalBelow s.par s.cfg k.val
    | _ => true

/-- A transfer runs only on a configured transport (R111, R131). -/
def validFits (s : State) : Bool := s.cfgValid || !(s.op == .send || s.op == .recv)

/-- The last event, if there is one, has a property. -/
def lastEvent (s : State) (p : Event → Bool) : Bool :=
  match s.trace with
  | e :: _ => p e
  | [] => false

/-- The event is `RX` of some octet. -/
def isRxEvent : Event → Bool
  | .rx _ => true
  | _ => false

/-- The event is `TX` of some octet. -/
def isTxEvent : Event → Bool
  | .tx _ => true
  | _ => false

/-- The order of events (R63, R264, R265), as what the last event was at each step: an exchange is a `TX` and then its `RX`; the settle delay
follows the release of chip-select, and samples follow the delay; a phase after the first starts on a Ready sample. -/
def traceFits (s : State) : Bool :=
  match s.seq with
  | .phase ph .tx => (s.cnt == 0 && (ph == .hdr || lastEvent s (· == .hs true))) || (s.cnt != 0 && lastEvent s isRxEvent)
  | .phase ph .rel => (s.cnt == 0 && (ph == .hdr || lastEvent s (· == .hs true))) || (s.cnt != 0 && lastEvent s isRxEvent)
  | .phase _ .rx => lastEvent s isTxEvent
  | .phase _ .dly => lastEvent s (· == .csrel)
  | .phase _ .hs => lastEvent s (fun e => e == .dly s.par.settleIters || e == .hs false)
  | .post => lastEvent s (· == .hs true)
  | .loop => lastEvent s (· == .hs true)
  | _ => true

/-- The invariant of the machine: what every state reached from reset satisfies (R37 and the rules it rests on). -/
structure Inv (s : State) : Prop where
  params : s.par.wf = true
  seq : seqFits s.op s.seq = true
  cs : s.csAct = true → csMayAct s.seq = true
  count : countFits s = true
  frame : frameFits s = true
  send : sendFits s = true
  nrd : nrdFits s = true
  cfg : cfgFits s = true
  valid : validFits s = true
  dst : Memory.wf s.dst = true
  trace : traceFits s = true

/-- `LEN` holds nothing the operation in progress has written (R38): while there is none and in `INIT`, before the mode step of `SEND`, and in a cycle
of `RECV` until the fourth octet of the Length frame. -/
def lenUnwritten (s : State) : Bool :=
  match s.op with
  | .none => true
  | .init => true
  | .send => s.seq == .mode
  | .recv =>
    match s.seq with
    | .phase .hdr _ => true
    | .phase .len .tx => Nat.blt s.cnt.toNat 4
    | .phase .len .rx => true
    | _ => false

/-- The same of `CNT` and `FB` (R38). -/
def frameUnwritten (s : State) : Bool :=
  match s.op with
  | .none => true
  | .init => true
  | .send => s.seq == .mode
  | .recv => false

/-- Two states that differ at most in working registers that the operation in progress has not written yet (R38); `NRD` and `MAXL` belong to `RECV`. -/
def agreeOnWritten (s u : State) : Prop :=
  u = { s with len := u.len, nrd := u.nrd, maxl := u.maxl, cnt := u.cnt, fb := u.fb } ∧
    (lenUnwritten s = false → u.len = s.len) ∧ (frameUnwritten s = false → u.cnt = s.cnt ∧ u.fb = s.fb) ∧
    (s.op = .recv → u.nrd = s.nrd ∧ u.maxl = s.maxl)

/-- The step answered a next state. -/
def isNext (o : Host.Outcome State Fault Refusal) : Bool :=
  match o with
  | .next _ => true
  | .fault _ => false
  | .refused _ => false

/-- A run without a refusal (R12: a run that contains one is not clean). -/
def runClean (s : State) : Bool := s.marks.isEmpty

/-! ## The events and the results of whole operations -/

/-- The events of exchanges, in order: each octet sent, and the octet that came back (R175). -/
def exchangeEvents : List Octet → List Octet → List Event
  | b :: bs, v :: vs => .tx b :: .rx v :: exchangeEvents bs vs
  | _, _ => []

/-- The events of a phase against a slave that is ready at once: its exchanges, then its boundary (R176). -/
def phaseEvents (settle : Nat) (outs ins : List Octet) : List Event :=
  exchangeEvents outs ins ++ [.csrel, .dly settle, .hs true]

/-- The events of a `SEND` with length `len` against a slave that is ready at once and returns the octets `ins` (R117). -/
def sendEvents (settle : Nat) (len : Len15) (msg ins : List Octet) : List Event :=
  phaseEvents settle (encode .hdrSend) (ins.take 4) ++
    phaseEvents settle (encLen len) ((ins.drop 4).take 4) ++ phaseEvents settle (msg.take len.toNat) (ins.drop 8)

/-- The events of one `RECV` cycle against a slave that is ready at once (R140): `hdr` comes back against the Header frame, `frame` is the Length
frame, `pay` the payload. -/
def cycleEvents (settle : Nat) (hdr frame pay : List Octet) : List Event :=
  phaseEvents settle (encode .hdrRecv) hdr ++ phaseEvents settle (List.replicate 4 Config.filler) frame ++
    phaseEvents settle (List.replicate pay.length Config.filler) pay

/-- What index `i` of the destination holds after one cycle (R136 to R138): payload below `NRD`, with CR and LF turned into a space where
normalisation reaches; the terminator at `LEN` if it is below `MAXL`; else what was there. -/
def cycleOctet (before : Memory) (len : Len15) (maxl : BitVec Config.maxlW) (pay : List Octet) (i : Nat) : Octet :=
  if i < min len.toNat maxl.toNat then
    if len.toNat < maxl.toNat ∧ 4 ≤ len.toNat ∧ i < len.toNat - 2 ∧ isEol (pay.getD i 0) then Config.space else pay.getD i 0
  else if i = len.toNat ∧ len.toNat < maxl.toNat then Config.nul
  else before.read i

end Sys2Proof
end

