-- ==== Sys2Proof/Certificates/Slice0/Obligations.lean ====
section
/-! DEFINITION. The statements for the provers, in terms of the model and of the rules of spec/. A statement that answers `.next` of `s` with named fields says, by that equation, that every other field is unchanged: every other register, the configuration, the memory, the host and the parameters. -/

open Sys2Proof Sys2Proof.Machine

/-! ## Encoding -/

/-- A few words written out from R92, and the codes of R93. Every 32-bit word is also a `LEN_IN`, and an 8-bit word can be any of three rows: that a word
without its place is read as the row with the most fixed bits is the model's choice (log 14). -/
def Obligations.TableWordsDecode : Prop :=
  decodeTableWord 32 0x02000000 = some .hdrSend ∧ decodeTableWord 32 0x01000000 = some .hdrRecv ∧
  decodeTableWord 32 0x48010041 = some (.lenOut 0x48 0x01) ∧
  decodeTableWord 32 0x2C020042 = some (.lenIn 0 0x2C 0x02 0x00 0x42) ∧
  decodeTableWord 8 0x00 = some .fill ∧ decodeTableWord 8 0x55 = some (.payOut 0x55) ∧
  decodeTableWord 2 0b00 = some .init ∧ decodeTableWord 2 0b01 = some .send ∧
  decodeTableWord 2 0b10 = some .recv ∧ decodeTableWord 2 0b11 = some .query

/-- R81 to R93: decoding the octets of a well-formed instruction at its place gives it back, whatever its fields. -/
def Obligations.DecodeUndoesEncode : Prop :=
  ∀ i : Instr, i.wf = true → decodeAt (place i) (encode i) = .ok i

/-- R81 to R93: octets that decode at a place are the octets of the instruction they decode to, and that is its place. -/
def Obligations.EncodeUndoesDecode : Prop :=
  ∀ (p : Place) (bs : List Octet) (i : Instr), decodeAt p bs = .ok i → encode i = bs ∧ place i = p

/-- R91, R92: the octets of an instruction, as one word, match the mask and pattern of its row of the table. -/
def Obligations.EncodedWordMatchesTableRow : Prop :=
  ∀ i : Instr, (wordOf (encode i)) &&& (tableRow i).mask = (tableRow i).pattern ∧
    wordOf (encode i) < 2 ^ (tableRow i).nbits ∧ place i = (tableRow i).at_

/-- R92: which 32-bit words are a Header frame and which an outgoing Length frame, and with what fields. -/
def Obligations.WordsOfTheMaster : Prop :=
  ∀ w : Nat, w < 2 ^ 32 →
    (decodeAt .header (octetsOf 4 w) = .ok .hdrSend ↔ w = 0x02000000) ∧
    (decodeAt .header (octetsOf 4 w) = .ok .hdrRecv ↔ w = 0x01000000) ∧
    (∀ (l : BitVec 7) (h : Octet), decodeAt .lengthOut (octetsOf 4 w) = .ok (.lenOut l h) ↔
      w &&& 0x8000FFFF = 0x00000041 ∧ l.toNat = w / 2 ^ 24 % 128 ∧ h.toNat = w / 2 ^ 16 % 256)

/-- R84, R95: whatever octets come back, they are a Length frame or a payload octet; byte0 is split into bit 7 and the low seven bits. -/
def Obligations.NothingReturnedIsIllegal : Prop :=
  (∀ b0 b1 b2 b3 : Octet, ∃ u l, decodeAt .lengthIn [b0, b1, b2, b3] = .ok (.lenIn u l b1 b2 b3) ∧
    b0.toNat = u.toNat * 128 + l.toNat) ∧
  (∀ d : Octet, decodeAt .payloadIn [d] = .ok (.payIn d))

/-- R85 and R86 as numbers (byte2 is the spec's decision D12, the mask of the decoder D13): the four octets of `Enc(L)`, and the value of `Dec`. -/
def Obligations.LengthCodecValues : Prop :=
  (∀ len : Len15, ∃ b0 b1 : Octet, encLen len = [b0, b1, 0x00, 0x41] ∧
    b0.toNat = len.toNat % 128 ∧ b1.toNat = len.toNat / 128) ∧
  (∀ b0 b1 : Octet, (decLen b0 b1).toNat = b1.toNat * 128 + b0.toNat % 128)

/-- R87, and S1 of the source's own properties: encoding then decoding a length gives it back, and the other way round for byte0 below 0x80. -/
def Obligations.LengthRoundTrip : Prop :=
  (∀ len : Len15, ∃ b0 b1 r m, encLen len = [b0, b1, r, m] ∧ decLen b0 b1 = len) ∧
  (∀ b0 b1 : Octet, b0.toNat < 0x80 → ∃ r m, encLen (decLen b0 b1) = [b0, b1, r, m])

/-! ## The mode machine -/

/-- R161 (D6, D7, D9): what the two comparisons mean, and that legal parameters exclude both at once. -/
def Obligations.ComparisonsMeanWhatTheySay : Prop :=
  (∀ (p : Params) (m : List Octet), isEnable p m = true ↔ m = p.enableCmd) ∧
  (∀ (p : Params) (m : List Octet), sentinelOk p.endSentinel = true →
    (isEndSentinel p m = true ↔ ∃ tail, m = p.endSentinel ++ tail ∧ ∀ b ∈ tail, b = 0x0D ∨ b = 0x0A)) ∧
  (∀ (p : Params) (m : List Octet), p.wf = true → ¬ (isEnable p m = true ∧ isEndSentinel p m = true))

/-- The nine rows of R166's table, with the forcing bit and `LEN` (forcing outside `On` is the spec's decision D8). -/
def Obligations.ModeTable : Prop :=
  ∀ (p : Params) (m : List Octet), p.wf = true →
    (isEnable p m = true →
      modeStep p .off m = (.on, false) ∧ modeStep p .on m = (.on, false) ∧ modeStep p .ending m = (.on, false) ∧
        sendLen p m = msgLen m) ∧
    (isEndSentinel p m = true →
      modeStep p .off m = (.off, true) ∧ modeStep p .on m = (.ending, true) ∧ modeStep p .ending m = (.off, true) ∧
        sendLen p m = 3) ∧
    (isEnable p m = false → isEndSentinel p m = false →
      modeStep p .off m = (.off, false) ∧ modeStep p .on m = (.on, false) ∧ modeStep p .ending m = (.off, false) ∧
        sendLen p m = msgLen m)

/-- R112: the mode step writes `TMODE` and `LEN` and enters the Header phase, with no event; from then on, as long as the host asks for nothing else
and does not reset, `TMODE`, the output `tmode_q` and any `QUERY` show the new mode. -/
def Obligations.ModeStepFixesModeAndLength : Prop :=
  ∀ s : State, s.op = .send → s.seq = .mode → s.port = none →
    ∃ t, exec .send s = .next t ∧
      t = { s with tmode := (modeStep s.par s.tmode s.msg).1
                   len := if (modeStep s.par s.tmode s.msg).2 then 3 else BitVec.ofNat 15 s.msg.length
                   fb := ⟨0x02, 0x00, 0x00, 0x00⟩, cnt := 0, seq := .phase .hdr .tx } ∧
      (s.host = [] → ∀ (k : Nat) (u : State), Host.Core.run Sys2Proof.core k t = .next u →
        u.tmode = (modeStep s.par s.tmode s.msg).1 ∧ u.tmodeQ = (modeStep s.par s.tmode s.msg).1.code ∧
          ∃ v, exec .query u = .next v ∧ v.ret = some (.mode (modeStep s.par s.tmode s.msg).1))

/-- R163: a `SEND` that finds `Ending` leaves it first, and is then tested against `Off`. -/
def Obligations.EndingIsLeftFirst : Prop :=
  ∀ s : State, s.op = .send → s.seq = .mode → s.port = none → s.tmode = .ending →
    ∃ t, exec .send s = .next t ∧ (s.msg = s.par.enableCmd → t.tmode = .on) ∧
      (s.msg ≠ s.par.enableCmd → t.tmode = .off) ∧ t.tmode ≠ .ending

/-- R164: `Off` to `On` on the streaming-enable command, which is sent whole. -/
def Obligations.EnableTurnsOn : Prop :=
  ∀ s : State, s.par.wf = true → s.op = .send → s.seq = .mode → s.port = none → s.tmode = .off → s.msg = s.par.enableCmd →
    ∃ t, exec .send s = .next t ∧ t.tmode = .on ∧ t.len.toNat = s.msg.length ∧ t.msg = s.msg

/-- R165: `On` to `Ending` on the end sentinel; `LEN` is forced to 3, the Length frame is `03 00 00 41` and the payload is the sentinel. -/
def Obligations.SentinelEndsAndForcesThree : Prop :=
  ∀ s : State, s.op = .send → s.seq = .mode → s.port = none → s.tmode = .on → isEndSentinel s.par s.msg = true →
    ∃ t, exec .send s = .next t ∧ t.tmode = .ending ∧ t.len = 3 ∧ encLen t.len = [0x03, 0x00, 0x00, 0x41] ∧
      t.msg.take t.len.toNat = s.par.endSentinel

/-! ## Octets sent -/

/-- R113, R114, R115, R132, R186 (byte2 of the Length frame is D12): when a transmit slot is free, octet `CNT` of the frame is sent: of the two Header frames, of the
Length frame (`l` with bit 7 clear, `h`, 0x00, 0x41), and of the payload, unchanged, while fewer than `LEN` octets were sent. -/
def Obligations.MasterOctetIsSent : Prop :=
  ∀ (s : State) (b : Octet), s.env.txReady = true →
    (s.op = .send → s.seq = .phase .hdr .tx → [0x02, 0x00, 0x00, 0x00][s.cnt.toNat]? = some b →
      exec .hdrSend s = .next { s with env := s.env.popTx, trace := .tx b :: s.trace, csAct := true, seq := .phase .hdr .rx }) ∧
    (s.op = .recv → s.seq = .phase .hdr .tx → [0x01, 0x00, 0x00, 0x00][s.cnt.toNat]? = some b →
      exec .hdrRecv s = .next { s with env := s.env.popTx, trace := .tx b :: s.trace, csAct := true, seq := .phase .hdr .rx }) ∧
    (∀ (l : BitVec 7) (h : Octet), s.op = .send → s.seq = .phase .len .tx →
      [BitVec.ofNat 8 l.toNat, h, 0x00, 0x41][s.cnt.toNat]? = some b →
      exec (.lenOut l h) s =
        .next { s with env := s.env.popTx, trace := .tx b :: s.trace, csAct := true, seq := .phase .len .rx }) ∧
    (s.op = .send → s.seq = .phase .pay .tx → s.cnt.toNat < s.len.toNat →
      exec (.payOut b) s = .next { s with env := s.env.popTx, trace := .tx b :: s.trace, csAct := true, seq := .phase .pay .rx })

/-- R133, R136, R89: `RECV` sends a zero octet for each octet to be read: four in the Length phase, `NRD` in the Payload phase. -/
def Obligations.FillerIsZero : Prop :=
  ∀ s : State, s.op = .recv → s.env.txReady = true →
    (s.seq = .phase .len .tx → s.cnt.toNat < 4 →
      exec .fill s = .next { s with env := s.env.popTx, trace := .tx 0x00 :: s.trace, csAct := true, seq := .phase .len .rx }) ∧
    (s.seq = .phase .pay .tx → s.cnt.toNat < s.nrd.toNat →
      exec .fill s = .next { s with env := s.env.popTx, trace := .tx 0x00 :: s.trace, csAct := true, seq := .phase .pay .rx })

/-- R175, R186: in all of `SEND` and in the Header phase of `RECV` the octet that comes back is read and dropped: it reaches no register and no memory. -/
def Obligations.ReturnedOctetIsDropped : Prop :=
  ∀ (s : State) (v : Octet), s.env.rxAnswer = some v →
    (s.op = .send → s.seq = .phase .hdr .rx →
      exec .hdrSend s = .next { s with env := s.env.popRx, trace := .rx v :: s.trace, cnt := s.cnt + 1, seq := .phase .hdr .tx }) ∧
    (s.op = .recv → s.seq = .phase .hdr .rx →
      exec .hdrRecv s = .next { s with env := s.env.popRx, trace := .rx v :: s.trace, cnt := s.cnt + 1, seq := .phase .hdr .tx }) ∧
    (∀ l h, s.op = .send → s.seq = .phase .len .rx →
      exec (.lenOut l h) s = .next { s with env := s.env.popRx, trace := .rx v :: s.trace, cnt := s.cnt + 1, seq := .phase .len .tx }) ∧
    (∀ d, s.op = .send → s.seq = .phase .pay .rx →
      exec (.payOut d) s = .next { s with env := s.env.popRx, trace := .rx v :: s.trace, cnt := s.cnt + 1, seq := .phase .pay .tx })

/-- R231: with no free transmit slot, or no valid received octet, the step of the row in progress leaves everything as it is, so that it is tried
again without limit; only the environment's answer is used up. -/
def Obligations.NotReadyIsRetried : Prop :=
  ∀ (s : State) (i : Instr), s.port = none → engineFetch s = .run i → Inv s →
    (∀ ph, s.seq = .phase ph .tx → s.cnt.toNat < s.octetCount ph → s.env.txReady = false →
      exec i s = .next { s with env := s.env.popTx }) ∧
    (∀ ph, s.seq = .phase ph .rx → s.env.rxAnswer = none → exec i s = .next { s with env := s.env.popRx })

/-! ## Octets received -/

/-- R133, R134, R186: octet `CNT` of the returned frame goes to `FB[CNT]`; with the fourth, `LEN` is decoded from `FB[0]` and `FB[1]`. -/
def Obligations.LengthOctetIsCaptured : Prop :=
  ∀ (s : State) (u : BitVec 1) (l : BitVec 7) (h v m : Octet), s.op = .recv → s.seq = .phase .len .rx →
    (s.cnt = 0 → exec (.lenIn u l h v m) s =
      .next { s with env := s.env.popRx, trace := .rx (u ++ l) :: s.trace, cnt := 1, seq := .phase .len .tx, fb := { s.fb with b0 := u ++ l } }) ∧
    (s.cnt = 1 → exec (.lenIn u l h v m) s =
      .next { s with env := s.env.popRx, trace := .rx h :: s.trace, cnt := 2, seq := .phase .len .tx, fb := { s.fb with b1 := h } }) ∧
    (s.cnt = 2 → exec (.lenIn u l h v m) s =
      .next { s with env := s.env.popRx, trace := .rx v :: s.trace, cnt := 3, seq := .phase .len .tx, fb := { s.fb with b2 := v } }) ∧
    (s.cnt = 3 → exec (.lenIn u l h v m) s =
      .next { s with env := s.env.popRx, trace := .rx m :: s.trace, cnt := 4, seq := .phase .len .tx, fb := { s.fb with b3 := m }
                     len := decLen s.fb.b0 s.fb.b1 })

/-- R136 (from index 0 in every cycle: D16; that `DST` is written at each octet is log 8): a payload octet is stored at `DST[CNT]`; every other octet of `DST` keeps its value. -/
def Obligations.PayloadOctetIsStored : Prop :=
  ∀ (s : State) (d : Octet), Memory.wf s.dst = true → s.op = .recv → s.seq = .phase .pay .rx → s.cnt.toNat < s.maxl.toNat →
    ∃ t, exec (.payIn d) s = .next t ∧
      t = { s with env := s.env.popRx, trace := .rx d :: s.trace, cnt := s.cnt + 1, seq := .phase .pay .tx, dst := t.dst } ∧
      t.dst.read s.cnt.toNat = d ∧ ∀ j, j ≠ s.cnt.toNat → t.dst.read j = s.dst.read j

/-! ## The boundary -/

/-- R176, R186: chip-select is released, then the settle delay passes, in either operation and in every phase. -/
def Obligations.BoundaryReleasesThenWaits : Prop :=
  ∀ (s : State) (ph : Phase), s.port = none →
    (s.seq = .phase ph .rel →
      (s.op = .send → exec .send s = .next { s with trace := .csrel :: s.trace, csAct := false, seq := .phase ph .dly }) ∧
      (s.op = .recv → exec .recv s = .next { s with trace := .csrel :: s.trace, csAct := false, seq := .phase ph .dly })) ∧
    (s.seq = .phase ph .dly →
      (s.op = .send → exec .send s = .next { s with trace := .dly s.par.settleIters :: s.trace, seq := .phase ph .hs }) ∧
      (s.op = .recv → exec .recv s = .next { s with trace := .dly s.par.settleIters :: s.trace, seq := .phase ph .hs }))

/-- R179 (empty phases: D35), R186: when all `N` octets of a phase are through, and so at once when `N = 0`, its boundary follows. -/
def Obligations.EveryPhaseHasItsBoundary : Prop :=
  ∀ (s : State) (ph : Phase), s.port = none → s.seq = .phase ph .tx → s.cnt.toNat = s.octetCount ph →
    (s.op = .send → exec .send s = .next { s with seq := .phase ph .rel }) ∧
    (s.op = .recv → exec .recv s = .next { s with seq := .phase ph .rel })

/-- R178: as long as the slave does not read Ready the poll goes on, sample after sample, and the block is otherwise frozen; there is no other way out. -/
def Obligations.NeverReadyNeverLeaves : Prop :=
  ∀ (n k : Nat) (s : State) (ph : Phase) (more : List Bool), s.par.supportsReceive = true → s.port = none → s.host = [] →
    s.op = .send ∨ s.op = .recv → s.seq = .phase ph .hs → s.env.hs = List.replicate n false ++ more → k ≤ n →
    Host.Core.run Sys2Proof.core k s =
      .next { s with env := { s.env with hs := List.replicate (n - k) false ++ more }
                     trace := List.replicate k (.hs false) ++ s.trace }

/-- R176, R186, R116: a Ready sample starts what follows the phase: in `SEND` the Length phase with `Enc(LEN)` in `FB`, the Payload phase,
completion with `success = 1`. -/
def Obligations.ReadySampleGoesOnInSend : Prop :=
  ∀ s : State, s.port = none → s.op = .send → s.env.hsSample = true →
    (s.seq = .phase .hdr .hs → ∃ f : FrameBuf, f.octets = encLen s.len ∧ exec .send s =
      .next { s with env := s.env.popHs, trace := .hs true :: s.trace, cnt := 0, fb := f, seq := .phase .len .tx }) ∧
    (s.seq = .phase .len .hs → exec .send s =
      .next { s with env := s.env.popHs, trace := .hs true :: s.trace, cnt := 0, seq := .phase .pay .tx }) ∧
    (s.seq = .phase .pay .hs → exec .send s =
      .next { s with env := s.env.popHs, trace := .hs true :: s.trace, cnt := 0, op := .none, seq := .idle, ret := some (.sendDone true) })

/-- R176, R186: a Ready sample starts what follows the phase: in `RECV` the Length phase, the Payload phase with `NRD = min(LEN, MAXL)`, post-processing. -/
def Obligations.ReadySampleGoesOnInRecv : Prop :=
  ∀ s : State, s.port = none → s.op = .recv → s.env.hsSample = true →
    (s.seq = .phase .hdr .hs → exec .recv s =
      .next { s with env := s.env.popHs, trace := .hs true :: s.trace, cnt := 0, seq := .phase .len .tx }) ∧
    (s.seq = .phase .len .hs → ∃ n : Len15, n.toNat = min s.len.toNat s.maxl.toNat ∧ exec .recv s =
      .next { s with env := s.env.popHs, trace := .hs true :: s.trace, cnt := 0, nrd := n, seq := .phase .pay .tx }) ∧
    (s.seq = .phase .pay .hs → exec .recv s =
      .next { s with env := s.env.popHs, trace := .hs true :: s.trace, cnt := 0, seq := .post })

/-- R135: `NRD` is the lesser of `LEN` and `MAXL` when the Payload phase of a cycle starts, and so many octets the phase reads. -/
def Obligations.PayloadCountIsTheLesser : Prop :=
  ∀ s : State, s.port = none → s.op = .recv → s.seq = .phase .len .hs → s.env.hsSample = true →
    ∃ t, exec .recv s = .next t ∧ t.seq = .phase .pay .tx ∧ t.nrd.toNat = min s.len.toNat s.maxl.toNat ∧
      t.octetCount .pay = min s.len.toNat s.maxl.toNat

/-! ## Acceptance and completion -/

/-- R111, R234, R236 (D19, D23, D24; log 3, log 13): `SEND` on the command port: taken when the block is idle and configured; else turned away with none of its effect but the mark. -/
def Obligations.SendIsTakenOrTurnedAway : Prop :=
  ∀ (s : State) (r : Request), s.port = some r →
    (r.msg.length ≤ 32767 → s.op = .none → s.cfgValid = true →
      exec .send s = .next { s with port := none, op := .send, seq := .mode, msg := r.msg }) ∧
    (r.msg.length ≤ 32767 → s.op ≠ .none → exec .send s = .next { s with port := none, marks := .busy :: s.marks }) ∧
    (r.msg.length ≤ 32767 → s.op = .none → s.cfgValid = false →
      exec .send s = .next { s with port := none, marks := .notInitialised :: s.marks }) ∧
    (32767 < r.msg.length → exec .send s = .next { s with port := none, marks := .tooLong :: s.marks })

/-- R131 (D15, D23, D24; log 3; that `NRD` is cleared is log 9): `RECV` on the command port; the first cycle starts at once, in every mode, with no sample of the handshake. -/
def Obligations.RecvIsTakenOrTurnedAway : Prop :=
  ∀ (s : State) (r : Request), s.port = some r →
    (s.op = .none → s.cfgValid = true → r.dst = none →
      exec .recv s = .next { s with port := none, op := .recv, seq := .phase .hdr .tx, cnt := 0, fb := ⟨0x01, 0x00, 0x00, 0x00⟩, maxl := r.maxLen, nrd := 0 }) ∧
    (∀ cells, s.op = .none → s.cfgValid = true → r.dst = some cells →
      exec .recv s = .next { s with port := none, op := .recv, seq := .phase .hdr .tx, cnt := 0, fb := ⟨0x01, 0x00, 0x00, 0x00⟩, maxl := r.maxLen, nrd := 0, dst := Memory.ofCells cells }) ∧
    (s.op ≠ .none → exec .recv s = .next { s with port := none, marks := .busy :: s.marks }) ∧
    (s.op = .none → s.cfgValid = false → exec .recv s = .next { s with port := none, marks := .notInitialised :: s.marks })

/-- R201, R203, R236 (D23, D25; log 3): `INIT` on the command port. -/
def Obligations.InitIsTakenOrTurnedAway : Prop :=
  ∀ (s : State) (r : Request), s.port = some r →
    (s.op = .none → r.hz ≠ 0 → exec .init s = .next { s with port := none, op := .init, seq := .clk, hz := r.hz }) ∧
    (s.op ≠ .none → exec .init s = .next { s with port := none, marks := .busy :: s.marks }) ∧
    (s.op = .none → r.hz = 0 → exec .init s = .next { s with port := none, marks := .badClock :: s.marks })

/-- R205 (D40): `QUERY` returns `TMODE` in every state, writes no register of the block and has no event; `tmode_q` is the code of R22. -/
def Obligations.QueryReturnsTheMode : Prop :=
  ∀ s : State, exec .query s = .next { s with port := none, ret := some (.mode s.tmode) } ∧
    (s.tmode = .off → s.tmodeQ = 0) ∧ (s.tmode = .on → s.tmodeQ = 1) ∧ (s.tmode = .ending → s.tmodeQ = 2)

/-! ## Post-processing and the loop of RECV -/

/-- R137: the terminator goes to index `LEN` when that is below `MAXL`; else `DST` is as the Payload phase left it, and, in a state of the invariant, that
phase read `MAXL` octets, so all of `DST` is payload. That post-processing is one step is the model's choice (log 7). -/
def Obligations.TerminatorIsWritten : Prop :=
  ∀ s : State, Memory.wf s.dst = true → s.port = none → s.op = .recv → s.seq = .post →
    ∃ t, exec .recv s = .next t ∧ t.seq = .loop ∧
      (s.len.toNat < s.maxl.toNat → t.dst.read s.len.toNat = 0x00) ∧
      (s.maxl.toNat ≤ s.len.toNat → t.dst = s.dst ∧ (Inv s → s.nrd.toNat = s.maxl.toNat))

/-- R137, R138: what every index of `DST` holds after post-processing, and that nothing else changes. That it is one step, and what it leaves in `CNT`,
are the model's choices (log 7). -/
def Obligations.NormalisationAndFrameOfPost : Prop :=
  ∀ s : State, Memory.wf s.dst = true → s.port = none → s.op = .recv → s.seq = .post →
    ∃ t, exec .recv s = .next t ∧ t = { s with dst := t.dst, cnt := t.cnt, seq := .loop } ∧
      ∀ j, t.dst.read j =
        if s.len.toNat < s.maxl.toNat ∧ 4 ≤ s.len.toNat ∧ j < s.len.toNat - 2 ∧ (s.dst.read j = 0x0D ∨ s.dst.read j = 0x0A) then 0x20
        else if s.len.toNat < s.maxl.toNat ∧ j = s.len.toNat then 0x00
        else s.dst.read j

/-- R144: a cycle of length zero writes the terminator at index 0; nothing is normalised; and, in a state of the invariant, its Payload phase read
no octet. That post-processing is one step is the model's choice (log 7). -/
def Obligations.LengthZeroTerminatesAtZero : Prop :=
  ∀ s : State, Memory.wf s.dst = true → s.port = none → s.op = .recv → s.seq = .post → s.len = 0 → 1 ≤ s.maxl.toNat →
    ∃ t, exec .recv s = .next t ∧ t.dst.read 0 = 0x00 ∧ (∀ j, j ≠ 0 → t.dst.read j = s.dst.read j) ∧
      (Inv s → s.nrd.toNat = 0)

/-- R146: a cycle of length ten. That post-processing is one step is the model's choice (log 7). -/
def Obligations.LengthTenIsNormalisedBelowEight : Prop :=
  ∀ s : State, Memory.wf s.dst = true → s.port = none → s.op = .recv → s.seq = .post → s.len = 10 → 10 < s.maxl.toNat →
    ∃ t, exec .recv s = .next t ∧
      (∀ j, j < 8 → t.dst.read j = if s.dst.read j = 0x0D ∨ s.dst.read j = 0x0A then 0x20 else s.dst.read j) ∧
      t.dst.read 8 = s.dst.read 8 ∧ t.dst.read 9 = s.dst.read 9 ∧ t.dst.read 10 = 0x00

/-- R139 (D37; that `NRD` is cleared is log 9): after a cycle one more sample is taken; Ready starts a new cycle with the same `DST` and `MAXL`, not Ready completes. -/
def Obligations.LoopSampleDecides : Prop :=
  ∀ s : State, s.port = none → s.op = .recv → s.seq = .loop →
    (s.env.hsSample = true → exec .recv s =
      .next { s with env := s.env.popHs, trace := .hs true :: s.trace, fb := ⟨0x01, 0x00, 0x00, 0x00⟩, cnt := 0, nrd := 0, seq := .phase .hdr .tx }) ∧
    (s.env.hsSample = false → exec .recv s =
      .next { s with env := s.env.popHs, trace := .hs false :: s.trace, op := .none, seq := .idle, ret := some .recvDone })

/-! ## INIT -/

/-- R196, R203 (D25): the clock is read and the divider computed, or the request is turned away after the event, with the block idle again and
`CFG`, `CFG_VALID` and `TMODE` as they were. -/
def Obligations.DividerIsComputed : Prop :=
  ∀ (s : State) (f : Nat), s.port = none → s.op = .init → s.seq = .clk → s.hz ≠ 0 → s.env.clockHz = f →
    (∀ d, f / (2 * s.hz) = d + 1 → d < 2 ^ s.par.divW → exec .init s =
      .next { s with env := s.env.popClk, trace := .clk f :: s.trace, div := d, seq := .cfgw 0 }) ∧
    (f / (2 * s.hz) = 0 → exec .init s =
      .next { s with env := s.env.popClk, trace := .clk f :: s.trace, marks := .badClock :: s.marks, op := .none, seq := .idle }) ∧
    (∀ d, f / (2 * s.hz) = d + 1 → 2 ^ s.par.divW ≤ d → exec .init s =
      .next { s with env := s.env.popClk, trace := .clk f :: s.trace, marks := .divRange :: s.marks, op := .none, seq := .idle })

/-- R197: the frame format is 8 bits, most significant bit first, one line, whatever the operand. -/
def Obligations.FrameFormatIsConstant : Prop :=
  ∀ s : State, s.port = none → s.op = .init →
    (s.seq = .cfgw 0 → exec .init s =
      .next { s with trace := .cfg (.fmtBits 8) :: s.trace, cfg := { s.cfg with fmtBits := 8 }, seq := .cfgw 1 }) ∧
    (s.seq = .cfgw 1 → exec .init s =
      .next { s with trace := .cfg (.fmtMsbFirst true) :: s.trace, cfg := { s.cfg with fmtMsbFirst := true }, seq := .cfgw 2 }) ∧
    (s.seq = .cfgw 2 → exec .init s =
      .next { s with trace := .cfg (.fmtLines 1) :: s.trace, cfg := { s.cfg with fmtLines := 1 }, seq := .cfgw 3 })

/-- R201, R202 (D24, D26): from the clock reading, `INIT` takes nine steps to its end, with one `CLK` and eight `CFG` events; the eight fields hold
R24's values and `CFG_VALID = 1`. -/
def Obligations.InitRunsToCompletion : Prop :=
  ∀ (s : State) (d : Nat), s.par.supportsReceive = true → s.port = none → s.host = [] → s.op = .init → s.seq = .clk →
    s.env.clockHz / (2 * s.hz) = d + 1 → d < 2 ^ s.par.divW →
    Host.Core.run Sys2Proof.core 9 s =
      .next { s with
        env := s.env.popClk, div := d, op := .none, seq := .idle, cfgValid := true, ret := some .initDone
        cfg := { fmtBits := 8, fmtMsbFirst := true, fmtLines := 1, div := d, csIdle := s.par.csIdle, csMode := .auto
                 ssSel := s.par.ssIndex, pinsEn := s.par.pinSet }
        trace := [.cfg (.pinsEn s.par.pinSet), .cfg (.ssSel s.par.ssIndex), .cfg (.csMode .auto), .cfg (.csIdle s.par.csIdle),
                  .cfg (.div d), .cfg (.fmtLines 1), .cfg (.fmtMsbFirst true), .cfg (.fmtBits 8), .clk s.env.clockHz] ++ s.trace }

/-! ## Where a row stops -/

/-- Log 10 (the model's choice: the rules give no step there): a wire row at any step but its own, an operation at any step but its own and not asked
for, and a payload octet to be stored at or above `MAXL` stop by name. -/
def Obligations.RowsOutOfPlaceStop : Prop :=
  (∀ (s : State) (i : Instr) (o : Op) (ph : Phase),
    (i = .hdrSend ∧ o = .send ∧ ph = .hdr) ∨ (i = .hdrRecv ∧ o = .recv ∧ ph = .hdr) ∨
      ((∃ l h, i = .lenOut l h) ∧ o = .send ∧ ph = .len) ∨ ((∃ d, i = .payOut d) ∧ o = .send ∧ ph = .pay) →
    s.op ≠ o ∨ (s.seq ≠ .phase ph .tx ∧ s.seq ≠ .phase ph .rx) ∨ (s.seq = .phase ph .tx ∧ s.octetCount ph ≤ s.cnt.toNat) →
    exec i s = .fault .outOfPhase) ∧
  (∀ s : State, s.op ≠ .recv ∨ (∀ ph st, ph ≠ .hdr → st = .tx ∨ st = .rx → s.seq ≠ .phase ph st) ∨
      (∃ ph, s.seq = .phase ph .tx ∧ s.octetCount ph ≤ s.cnt.toNat) → exec .fill s = .fault .outOfPhase) ∧
  (∀ (s : State) (u : BitVec 1) (l : BitVec 7) (h v m : Octet), s.op ≠ .recv ∨ s.seq ≠ .phase .len .rx ∨ 4 ≤ s.cnt.toNat →
    exec (.lenIn u l h v m) s = .fault .outOfPhase) ∧
  (∀ (s : State) (d : Octet), s.op ≠ .recv ∨ s.seq ≠ .phase .pay .rx → exec (.payIn d) s = .fault .outOfPhase) ∧
  (∀ (s : State) (d : Octet), s.op = .recv → s.seq = .phase .pay .rx → s.maxl.toNat ≤ s.cnt.toNat →
    exec (.payIn d) s = .fault .dstRange ∧ (s.env.rxAnswer = some d → exec .fill s = .fault .dstRange)) ∧
  (∀ s : State, s.port = none →
    (s.op ≠ .init ∨ (s.seq ≠ .clk ∧ ∀ k, s.seq ≠ .cfgw k) → exec .init s = .fault .outOfPhase) ∧
    (s.op ≠ .send ∨ (∃ ph, s.seq = .phase ph .tx ∧ s.cnt.toNat < s.octetCount ph) ∨ (∃ ph, s.seq = .phase ph .rx) ∨
      s.seq = .idle ∨ s.seq = .post ∨ s.seq = .loop ∨ s.seq = .clk ∨ (∃ k, s.seq = .cfgw k) → exec .send s = .fault .outOfPhase) ∧
    (s.op ≠ .recv ∨ (∃ ph, s.seq = .phase ph .tx ∧ s.cnt.toNat < s.octetCount ph) ∨ (∃ ph, s.seq = .phase ph .rx) ∨
      s.seq = .idle ∨ s.seq = .mode ∨ s.seq = .clk ∨ (∃ k, s.seq = .cfgw k) → exec .recv s = .fault .outOfPhase))

/-! ## Frames -/

/-- R118, R175: the rows the master sends in `SEND`, and the Header of `RECV`, change only the environment, the trace, `CS_ACT`, `CNT` and `SEQ`; so every octet of `DST` is unchanged. -/
def Obligations.SendingRowsFrame : Prop :=
  ∀ (s t : State) (i : Instr), (i = .hdrSend ∨ i = .hdrRecv ∨ (∃ l h, i = .lenOut l h) ∨ ∃ d, i = .payOut d) →
    exec i s = .next t →
    t = { s with env := t.env, trace := t.trace, csAct := t.csAct, cnt := t.cnt, seq := t.seq } ∧
      ∀ j, t.dst.read j = s.dst.read j

/-- R141: the rows read in `RECV`: `LEN_IN` changes `FB` and `LEN` besides, `PAY_IN` the one octet `DST[CNT]`, `FILL` no more than what the row it waits for would. -/
def Obligations.ReadingRowsFrame : Prop :=
  ∀ (s t : State), Memory.wf s.dst = true →
    (∀ u l h v m, exec (.lenIn u l h v m) s = .next t →
      t = { s with env := t.env, trace := t.trace, cnt := t.cnt, seq := t.seq, fb := t.fb, len := t.len } ∧
        ∀ j, t.dst.read j = s.dst.read j) ∧
    (∀ d, exec (.payIn d) s = .next t →
      t = { s with env := t.env, trace := t.trace, cnt := t.cnt, seq := t.seq, dst := t.dst } ∧
        ∀ j, j ≠ s.cnt.toNat → t.dst.read j = s.dst.read j) ∧
    (exec .fill s = .next t →
      t = { s with env := t.env, trace := t.trace, csAct := t.csAct, cnt := t.cnt, seq := t.seq, fb := t.fb, len := t.len, dst := t.dst } ∧
        (∀ j, ¬ (s.seq = .phase .pay .rx ∧ j = s.cnt.toNat) → t.dst.read j = s.dst.read j) ∧
        (s.seq ≠ .phase .len .rx → t.fb = s.fb ∧ t.len = s.len))

/-- R118: `SEND` changes no configuration, not `NRD`, not `MAXL` and no octet of `DST`; `TMODE` only at the mode step; `MSG` only when a request is taken. -/
def Obligations.SendFrame : Prop :=
  ∀ s t : State, exec .send s = .next t →
    t = { s with tmode := t.tmode, op := t.op, seq := t.seq, len := t.len, cnt := t.cnt, fb := t.fb, csAct := t.csAct, msg := t.msg
                 port := t.port, ret := t.ret, env := t.env, marks := t.marks, trace := t.trace } ∧
      (∀ j, t.dst.read j = s.dst.read j) ∧
      (s.seq ≠ .mode ∨ s.port ≠ none → t.tmode = s.tmode ∧ t.len = s.len) ∧
      (s.port = none → t.msg = s.msg ∧ t.port = none ∧ t.marks = s.marks)

/-- R141: `RECV` changes neither `TMODE` nor the configuration nor `MSG`; of `DST` it changes, outside acceptance, only octets below `MAXL`, and those only in post-processing. -/
def Obligations.RecvFrame : Prop :=
  ∀ s t : State, Memory.wf s.dst = true → exec .recv s = .next t →
    t = { s with op := t.op, seq := t.seq, len := s.len, nrd := t.nrd, maxl := t.maxl, cnt := t.cnt, fb := t.fb, csAct := t.csAct
                 dst := t.dst, port := t.port, ret := t.ret, env := t.env, marks := t.marks, trace := t.trace } ∧
      (s.port = none → t.maxl = s.maxl ∧ t.marks = s.marks ∧ (∀ j, s.maxl.toNat ≤ j → t.dst.read j = s.dst.read j) ∧
        (s.seq ≠ .post → t.dst = s.dst))

/-- R200: `INIT` does not touch `TMODE`, the link, the handshake line or the memories: no answer of the link or of the handshake line is used up, and an
event it adds is the clock reading or a write of the configuration. It writes its own registers, the configuration and the marks. -/
def Obligations.InitFrame : Prop :=
  ∀ s t : State, exec .init s = .next t →
    t = { s with op := t.op, seq := t.seq, hz := t.hz, div := t.div, cfg := t.cfg, cfgValid := t.cfgValid, port := t.port, ret := t.ret
                 env := t.env, marks := t.marks, trace := t.trace } ∧
      t.env.tx = s.env.tx ∧ t.env.rx = s.env.rx ∧ t.env.hs = s.env.hs ∧
      (t.trace = s.trace ∨ (∃ f, t.trace = .clk f :: s.trace) ∨ ∃ w, t.trace = .cfg w :: s.trace) ∧
      (∀ j, t.dst.read j = s.dst.read j) ∧ (s.seq = .clk → t.cfg = s.cfg ∧ t.cfgValid = s.cfgValid)

/-! ## Reset, the host, the step -/

/-- R39, R260: the state after reset. Only `TMODE` is the source's; `CFG_VALID`, `OP`, `SEQ` and `CS_ACT` are the spec's decision D28; that no request
stands on the command port is the model's choice (log 5), and that no event has happened is how it records them (log 4). -/
def Obligations.ResetState : Prop :=
  State.reset.tmode = .off ∧ State.reset.cfgValid = false ∧ State.reset.op = .none ∧ State.reset.seq = .idle ∧
    State.reset.csAct = false ∧ State.reset.trace = [] ∧ State.reset.port = none

/-- R260, R261 (D28, D29): `rst` gives the reset values with no event. Taken while idle it touches nothing outside the block; taken while BUSY it leaves the
destination and every answer of the environment free: `DST` is a free draw in canonical form and no answer stays listed (log 11). The model's choices besides: the
result port keeps its result (log 5), and a request that stands on the port is taken first, with `rst` still pending on the host's list (log 12): it is due at once again only if
it does not wait for an idle block, or the block is idle then. -/
def Obligations.RstResetsTheBlock : Prop :=
  ∀ (s : State) (rest : List HostAct), s.par.supportsReceive = true → s.hostDue = some (.rst, rest) →
    (∀ r, s.port = some r → ∃ t, step s = .next t ∧ t.port = none ∧ t.host = s.host) ∧
    (s.port = none → ∃ t, step s = .next t ∧ t.tmode = .off ∧ t.cfgValid = false ∧ t.op = .none ∧ t.seq = .idle ∧ t.csAct = false ∧
      t.trace = s.trace ∧ t.msg = s.msg ∧ t.par = s.par ∧ t.host = rest ∧ t.port = none ∧ t.ret = s.ret ∧ t.marks = s.marks ∧
      (s.op = .none → t.dst = s.dst ∧ t.env = s.env) ∧
      (s.op ≠ .none → t.dst = Memory.ofCells (Config.freeDst s.env.draws) ∧ Memory.wf t.dst = true ∧
        t.env = { tx := [], rx := [], hs := [], clk := [], draws := s.env.draws + 1 }))

/-- R215, R216: after a `SEND` and a `QUERY`, the host's `RECV` goes on the command port unless the mode is `On`. The model's choice (log 12): the policy's step looks
at the result port, and so asks for a `RECV` unless the last result there, of whatever operation, is the mode `On`. -/
def Obligations.ConsolePolicy : Prop :=
  ∀ (s : State) (r : Request) (rest : List HostAct), s.par.supportsReceive = true → s.port = none →
    s.hostDue = some (.recvUnlessOn r, rest) →
    (s.ret = some (.mode .on) → step s = .next { s with host := rest }) ∧
    (s.ret ≠ some (.mode .on) → ∃ q : Request, q.maxLen = r.maxLen ∧ q.dst = r.dst ∧ decodeCommand q.code = .recv ∧
      step s = .next { s with host := rest, port := some q })

/-- R12, R94, R218 (D32): a step runs the command on the port; with none there, an act of the host that is due comes next; else the row the sequencer is at runs, on the state in
which a waiting act of the host has counted the step; an idle block only lets that count go on. A configuration without receive is refused. That an act of the host
is a step of its own, comes after the port and before the block, and counts steps while it waits is the model's choice (log 12). -/
def Obligations.StepRunsTheFetchedRow : Prop :=
  ∀ s : State, (s.par.supportsReceive = false → step s = .refused .legacy) ∧ (s.par.supportsReceive = true →
    (∀ r, s.port = some r → step s = exec (decodeCommand r.code) s) ∧
    (∀ a rest, s.port = none → s.hostDue = some (a, rest) → step s = .next (s.hostStep a rest)) ∧
    (∀ i, s.port = none → s.hostDue = none → engineFetch s = .run i → step s = exec i { s with host := tickHost s.host }) ∧
    (s.port = none → s.hostDue = none → s.op = .none → s.seq = .idle → step s = .next { s with host := tickHost s.host }))

/-- R186, R117, R140, R201 (as read in states of the invariant): which row runs at which step: the frames of the phase while octets remain and while an octet is
exchanged, `MSG[CNT]` in the Payload phase of `SEND`, filler and then the octet that came back in `RECV`, and the operation itself at every other step; nothing
while the block is idle. -/
def Obligations.FetchFollowsTheSequencer : Prop :=
  ∀ s : State, Inv s →
    (s.op = .none → engineFetch s = .idle) ∧
    (s.op = .init → engineFetch s = .run .init) ∧
    (s.op = .send →
      (s.seq = .phase .hdr .tx ∧ s.cnt.toNat < 4 ∨ s.seq = .phase .hdr .rx → engineFetch s = .run .hdrSend) ∧
      (s.seq = .phase .len .tx ∧ s.cnt.toNat < 4 ∨ s.seq = .phase .len .rx →
        ∃ l h, engineFetch s = .run (.lenOut l h) ∧ encode (.lenOut l h) = encLen s.len) ∧
      (s.seq = .phase .pay .tx ∧ s.cnt.toNat < s.len.toNat ∨ s.seq = .phase .pay .rx →
        ∃ d, s.msg[s.cnt.toNat]? = some d ∧ engineFetch s = .run (.payOut d)) ∧
      (s.seq = .mode → engineFetch s = .run .send)) ∧
    (s.op = .recv →
      (s.seq = .phase .hdr .tx ∧ s.cnt.toNat < 4 ∨ s.seq = .phase .hdr .rx → engineFetch s = .run .hdrRecv) ∧
      (s.seq = .phase .len .tx ∧ s.cnt.toNat < 4 ∨ s.seq = .phase .len .rx ∧ s.env.rxAnswer = none → engineFetch s = .run .fill) ∧
      (s.seq = .phase .pay .tx ∧ s.cnt.toNat < s.nrd.toNat ∨ s.seq = .phase .pay .rx ∧ s.env.rxAnswer = none →
        engineFetch s = .run .fill) ∧
      (∀ v, s.seq = .phase .len .rx → s.env.rxAnswer = some v →
        ∃ u l h r m, engineFetch s = .run (.lenIn u l h r m) ∧ (encode (.lenIn u l h r m))[s.cnt.toNat]? = some v) ∧
      (∀ v, s.seq = .phase .pay .rx → s.env.rxAnswer = some v → engineFetch s = .run (.payIn v)) ∧
      (s.seq = .post ∨ s.seq = .loop → engineFetch s = .run .recv)) ∧
    (∀ ph, s.seq = .phase ph .tx ∧ s.cnt.toNat = s.octetCount ph ∨ s.seq = .phase ph .rel ∨ s.seq = .phase ph .dly ∨ s.seq = .phase ph .hs →
      (s.op = .send → engineFetch s = .run .send) ∧ (s.op = .recv → engineFetch s = .run .recv))

/-! ## Whole-machine rules -/

/-- R37 and the rules it rests on: the state after reset satisfies the invariant. -/
def Obligations.ResetSatisfiesInv : Prop := Inv State.reset

/-- R37 (its clause on `NRD` holds at every step because a cycle clears `NRD`, log 9), R24, R51, R63, R115: every step keeps the invariant. -/
def Obligations.StepKeepsInv : Prop :=
  ∀ s t : State, Inv s → step s = .next t → Inv t

/-- R51, R52, R230: in a state of the invariant every step answers a next state: no index is out of range, no frame out of phase, the configuration is not refused. A
request that R12 and R234 call refused is no stop either: it is turned away with a mark and the machine goes on, by the model's choice (log 3). -/
def Obligations.InvariantNeverStops : Prop :=
  ∀ s : State, Inv s → isNext (step s) = true

/-- R22, R168 and R166's last sentence: `TMODE` moves only at the mode step of a `SEND`, or by `rst`. -/
def Obligations.ModeMovesOnlyAtTheModeStep : Prop :=
  ∀ s t : State, step s = .next t → t.tmode ≠ s.tmode →
    (s.port = none ∧ s.op = .send ∧ s.seq = .mode) ∨ (s.port = none ∧ ∃ rest, s.hostDue = some (.rst, rest))

/-- R23, R24 (D24): the configuration and `CFG_VALID` move only in a `CFGW` step of `INIT`, or by `rst`. -/
def Obligations.ConfigurationMovesOnlyInInit : Prop :=
  ∀ s t : State, step s = .next t → (t.cfg ≠ s.cfg ∨ t.cfgValid ≠ s.cfgValid) →
    (s.port = none ∧ s.op = .init ∧ ∃ k, s.seq = .cfgw k) ∨ (s.port = none ∧ ∃ rest, s.hostDue = some (.rst, rest))

/-- R52: while a `RECV` goes on, no octet of `DST` at or above `MAXL` changes; while anything else goes on, none does. A request and `rst` apart, no step changes another octet. -/
def Obligations.DestinationKeepsItsBound : Prop :=
  ∀ s t : State, Inv s → s.port = none → (∀ rest, s.hostDue ≠ some (.rst, rest)) → step s = .next t →
    ∀ j, (s.op = .recv → s.maxl.toNat ≤ j) → t.dst.read j = s.dst.read j

/-- R12, R63: a step has at most one link-side event, and takes none back. The trace records the link-side events only (log 4): the accesses to `DST` in the step that
stores a payload octet (log 8) and in post-processing, which is one step (log 7), are the memory events of R11, which the spec's decision D17 keeps out of the
normative trace. -/
def Obligations.AtMostOneEventAStep : Prop :=
  ∀ s t : State, step s = .next t → t.trace = s.trace ∨ ∃ e, t.trace = e :: s.trace

/-- R38: two states that differ only in working registers that the operation in progress, if any, has not written yet take the same step, and differ afterwards only in
such registers: so nothing an earlier operation left there is ever found. From the command port on: a `SEND` has written `LEN`, `CNT` and `FB` after its
mode step, a `RECV` `MAXL`, `CNT` and `FB` at acceptance (and `NRD`, log 9). -/
def Obligations.WorkingRegistersCarryNothing : Prop :=
  (∀ s u t : State, agreeOnWritten s u → step s = .next t → ∃ v, step u = .next v ∧ agreeOnWritten t v) ∧
  (∀ (s : State) (r : Request) (len nrd : Len15) (maxl : BitVec Config.maxlW) (cnt : BitVec 15) (fb : FrameBuf),
    s.par.supportsReceive = true → s.op = .none → s.cfgValid = true → s.host = [] → s.port = some r → r.wf = true →
    (r.code = 0b01 → ∃ t, Host.Core.run Sys2Proof.core 2 s = .next t ∧
      Host.Core.run Sys2Proof.core 2 { s with len := len, nrd := nrd, maxl := maxl, cnt := cnt, fb := fb } =
        .next { t with nrd := nrd, maxl := maxl }) ∧
    (r.code = 0b10 → ∃ t, Host.Core.run Sys2Proof.core 1 s = .next t ∧
      Host.Core.run Sys2Proof.core 1 { s with len := len, nrd := nrd, maxl := maxl, cnt := cnt, fb := fb } =
        .next { t with len := len }))

/-! ## Whole operations -/

/-- R117, R122 (D11, D12): a `SEND` against a slave that is ready at once runs, from its mode step, in `2 · (8 + LEN) + 13` steps to its end; its events are those of R117 in order, whatever octets come back. -/
def Obligations.SendRunsToCompletion : Prop :=
  ∀ (s : State) (ins : List Octet) (txs : List Bool) (rxs : List (Option Octet)) (hss : List Bool),
    Inv s → s.port = none → s.host = [] → s.op = .send → s.seq = .mode →
    ins.length = 8 + (sendLen s.par s.msg).toNat →
    s.env.tx = List.replicate (8 + (sendLen s.par s.msg).toNat) true ++ txs →
    s.env.rx = ins.map some ++ rxs → s.env.hs = [true, true, true] ++ hss →
    ∃ t, Host.Core.run Sys2Proof.core (2 * (8 + (sendLen s.par s.msg).toNat) + 13) s = .next t ∧
      t.op = .none ∧ t.seq = .idle ∧ t.ret = some (.sendDone true) ∧ t.tmode = (modeStep s.par s.tmode s.msg).1 ∧
      t.trace = (sendEvents s.par.settleIters (sendLen s.par s.msg) s.msg ins).reverse ++ s.trace ∧
      t.dst = s.dst ∧ t.env.tx = txs ∧ t.env.rx = rxs ∧ t.env.hs = hss

/-- R140, R136 to R138, R150 (D13, D16): a `RECV` of one cycle against a slave that is ready at once: its events in order, and what every index of `DST` holds at its end.
The number of steps takes post-processing as one step, which is the model's choice (log 7). -/
def Obligations.RecvCycleRunsToCompletion : Prop :=
  ∀ (s : State) (hdr pay : List Octet) (b0 b1 b2 b3 : Octet) (txs : List Bool) (rxs : List (Option Octet)) (hss : List Bool),
    Inv s → s.port = none → s.host = [] → s.op = .recv → s.seq = .phase .hdr .tx → s.cnt = 0 →
    hdr.length = 4 → pay.length = min (decLen b0 b1).toNat s.maxl.toNat →
    s.env.tx = List.replicate (8 + pay.length) true ++ txs →
    s.env.rx = (hdr ++ [b0, b1, b2, b3] ++ pay).map some ++ rxs → s.env.hs = [true, true, true, false] ++ hss →
    ∃ t, Host.Core.run Sys2Proof.core (2 * (8 + pay.length) + 14) s = .next t ∧
      t.op = .none ∧ t.seq = .idle ∧ t.ret = some .recvDone ∧ t.tmode = s.tmode ∧ t.len = decLen b0 b1 ∧
      t.trace = .hs false :: ((cycleEvents s.par.settleIters hdr [b0, b1, b2, b3] pay).reverse ++ s.trace) ∧
      ∀ i, t.dst.read i = cycleOctet s.dst (decLen b0 b1) s.maxl pay i

/-- R182 (the liveness assumption): whatever stalls the transport and the slave put in, a `SEND` that gets its transmit slots, its returned octets and three Ready samples in the end completes. -/
def Obligations.FairSlaveLetsSendComplete : Prop :=
  ∀ s : State, Inv s → s.port = none → s.host = [] → s.op = .send → s.seq = .mode →
    8 + (sendLen s.par s.msg).toNat ≤ s.env.tx.count true →
    8 + (sendLen s.par s.msg).toNat ≤ s.env.rx.countP Option.isSome →
    3 ≤ s.env.hs.count true →
    ∃ k t, Host.Core.run Sys2Proof.core k s = .next t ∧ t.op = .none ∧ t.ret = some (.sendDone true)
end

