-- ==== Sys2Proof/Laws/State.lean ====
section
/-! SUPPORT. One lemma per field and update of State, true by rfl: no later proof unfolds a record update. -/

namespace Sys2Proof.Machine

variable (s : State)

/-! `State.emit` -/

@[simp] theorem State.emit_par (e : Event) : (s.emit e).par = s.par := rfl
@[simp] theorem State.emit_tmode (e : Event) : (s.emit e).tmode = s.tmode := rfl
@[simp] theorem State.emit_cfgValid (e : Event) : (s.emit e).cfgValid = s.cfgValid := rfl
@[simp] theorem State.emit_cfg (e : Event) : (s.emit e).cfg = s.cfg := rfl
@[simp] theorem State.emit_op (e : Event) : (s.emit e).op = s.op := rfl
@[simp] theorem State.emit_seq (e : Event) : (s.emit e).seq = s.seq := rfl
@[simp] theorem State.emit_len (e : Event) : (s.emit e).len = s.len := rfl
@[simp] theorem State.emit_nrd (e : Event) : (s.emit e).nrd = s.nrd := rfl
@[simp] theorem State.emit_maxl (e : Event) : (s.emit e).maxl = s.maxl := rfl
@[simp] theorem State.emit_cnt (e : Event) : (s.emit e).cnt = s.cnt := rfl
@[simp] theorem State.emit_fb (e : Event) : (s.emit e).fb = s.fb := rfl
@[simp] theorem State.emit_csAct (e : Event) : (s.emit e).csAct = s.csAct := rfl
@[simp] theorem State.emit_msg (e : Event) : (s.emit e).msg = s.msg := rfl
@[simp] theorem State.emit_dst (e : Event) : (s.emit e).dst = s.dst := rfl
@[simp] theorem State.emit_hz (e : Event) : (s.emit e).hz = s.hz := rfl
@[simp] theorem State.emit_div (e : Event) : (s.emit e).div = s.div := rfl
@[simp] theorem State.emit_port (e : Event) : (s.emit e).port = s.port := rfl
@[simp] theorem State.emit_ret (e : Event) : (s.emit e).ret = s.ret := rfl
@[simp] theorem State.emit_env (e : Event) : (s.emit e).env = s.env := rfl
@[simp] theorem State.emit_host (e : Event) : (s.emit e).host = s.host := rfl
@[simp] theorem State.emit_marks (e : Event) : (s.emit e).marks = s.marks := rfl
@[simp] theorem State.emit_trace (e : Event) : (s.emit e).trace = e :: s.trace := rfl

/-! `State.mark` -/

@[simp] theorem State.mark_par (r : Reason) : (s.mark r).par = s.par := rfl
@[simp] theorem State.mark_tmode (r : Reason) : (s.mark r).tmode = s.tmode := rfl
@[simp] theorem State.mark_cfgValid (r : Reason) : (s.mark r).cfgValid = s.cfgValid := rfl
@[simp] theorem State.mark_cfg (r : Reason) : (s.mark r).cfg = s.cfg := rfl
@[simp] theorem State.mark_op (r : Reason) : (s.mark r).op = s.op := rfl
@[simp] theorem State.mark_seq (r : Reason) : (s.mark r).seq = s.seq := rfl
@[simp] theorem State.mark_len (r : Reason) : (s.mark r).len = s.len := rfl
@[simp] theorem State.mark_nrd (r : Reason) : (s.mark r).nrd = s.nrd := rfl
@[simp] theorem State.mark_maxl (r : Reason) : (s.mark r).maxl = s.maxl := rfl
@[simp] theorem State.mark_cnt (r : Reason) : (s.mark r).cnt = s.cnt := rfl
@[simp] theorem State.mark_fb (r : Reason) : (s.mark r).fb = s.fb := rfl
@[simp] theorem State.mark_csAct (r : Reason) : (s.mark r).csAct = s.csAct := rfl
@[simp] theorem State.mark_msg (r : Reason) : (s.mark r).msg = s.msg := rfl
@[simp] theorem State.mark_dst (r : Reason) : (s.mark r).dst = s.dst := rfl
@[simp] theorem State.mark_hz (r : Reason) : (s.mark r).hz = s.hz := rfl
@[simp] theorem State.mark_div (r : Reason) : (s.mark r).div = s.div := rfl
@[simp] theorem State.mark_port (r : Reason) : (s.mark r).port = s.port := rfl
@[simp] theorem State.mark_ret (r : Reason) : (s.mark r).ret = s.ret := rfl
@[simp] theorem State.mark_env (r : Reason) : (s.mark r).env = s.env := rfl
@[simp] theorem State.mark_host (r : Reason) : (s.mark r).host = s.host := rfl
@[simp] theorem State.mark_marks (r : Reason) : (s.mark r).marks = r :: s.marks := rfl
@[simp] theorem State.mark_trace (r : Reason) : (s.mark r).trace = s.trace := rfl

/-! `State.clearPort` -/

@[simp] theorem State.clearPort_par : (s.clearPort).par = s.par := rfl
@[simp] theorem State.clearPort_tmode : (s.clearPort).tmode = s.tmode := rfl
@[simp] theorem State.clearPort_cfgValid : (s.clearPort).cfgValid = s.cfgValid := rfl
@[simp] theorem State.clearPort_cfg : (s.clearPort).cfg = s.cfg := rfl
@[simp] theorem State.clearPort_op : (s.clearPort).op = s.op := rfl
@[simp] theorem State.clearPort_seq : (s.clearPort).seq = s.seq := rfl
@[simp] theorem State.clearPort_len : (s.clearPort).len = s.len := rfl
@[simp] theorem State.clearPort_nrd : (s.clearPort).nrd = s.nrd := rfl
@[simp] theorem State.clearPort_maxl : (s.clearPort).maxl = s.maxl := rfl
@[simp] theorem State.clearPort_cnt : (s.clearPort).cnt = s.cnt := rfl
@[simp] theorem State.clearPort_fb : (s.clearPort).fb = s.fb := rfl
@[simp] theorem State.clearPort_csAct : (s.clearPort).csAct = s.csAct := rfl
@[simp] theorem State.clearPort_msg : (s.clearPort).msg = s.msg := rfl
@[simp] theorem State.clearPort_dst : (s.clearPort).dst = s.dst := rfl
@[simp] theorem State.clearPort_hz : (s.clearPort).hz = s.hz := rfl
@[simp] theorem State.clearPort_div : (s.clearPort).div = s.div := rfl
@[simp] theorem State.clearPort_port : (s.clearPort).port = none := rfl
@[simp] theorem State.clearPort_ret : (s.clearPort).ret = s.ret := rfl
@[simp] theorem State.clearPort_env : (s.clearPort).env = s.env := rfl
@[simp] theorem State.clearPort_host : (s.clearPort).host = s.host := rfl
@[simp] theorem State.clearPort_marks : (s.clearPort).marks = s.marks := rfl
@[simp] theorem State.clearPort_trace : (s.clearPort).trace = s.trace := rfl

/-! `State.goto` -/

@[simp] theorem State.goto_par (q : Seq) : (s.goto q).par = s.par := rfl
@[simp] theorem State.goto_tmode (q : Seq) : (s.goto q).tmode = s.tmode := rfl
@[simp] theorem State.goto_cfgValid (q : Seq) : (s.goto q).cfgValid = s.cfgValid := rfl
@[simp] theorem State.goto_cfg (q : Seq) : (s.goto q).cfg = s.cfg := rfl
@[simp] theorem State.goto_op (q : Seq) : (s.goto q).op = s.op := rfl
@[simp] theorem State.goto_seq (q : Seq) : (s.goto q).seq = q := rfl
@[simp] theorem State.goto_len (q : Seq) : (s.goto q).len = s.len := rfl
@[simp] theorem State.goto_nrd (q : Seq) : (s.goto q).nrd = s.nrd := rfl
@[simp] theorem State.goto_maxl (q : Seq) : (s.goto q).maxl = s.maxl := rfl
@[simp] theorem State.goto_cnt (q : Seq) : (s.goto q).cnt = s.cnt := rfl
@[simp] theorem State.goto_fb (q : Seq) : (s.goto q).fb = s.fb := rfl
@[simp] theorem State.goto_csAct (q : Seq) : (s.goto q).csAct = s.csAct := rfl
@[simp] theorem State.goto_msg (q : Seq) : (s.goto q).msg = s.msg := rfl
@[simp] theorem State.goto_dst (q : Seq) : (s.goto q).dst = s.dst := rfl
@[simp] theorem State.goto_hz (q : Seq) : (s.goto q).hz = s.hz := rfl
@[simp] theorem State.goto_div (q : Seq) : (s.goto q).div = s.div := rfl
@[simp] theorem State.goto_port (q : Seq) : (s.goto q).port = s.port := rfl
@[simp] theorem State.goto_ret (q : Seq) : (s.goto q).ret = s.ret := rfl
@[simp] theorem State.goto_env (q : Seq) : (s.goto q).env = s.env := rfl
@[simp] theorem State.goto_host (q : Seq) : (s.goto q).host = s.host := rfl
@[simp] theorem State.goto_marks (q : Seq) : (s.goto q).marks = s.marks := rfl
@[simp] theorem State.goto_trace (q : Seq) : (s.goto q).trace = s.trace := rfl

/-! `State.complete` -/

@[simp] theorem State.complete_par (r : Reply) : (s.complete r).par = s.par := rfl
@[simp] theorem State.complete_tmode (r : Reply) : (s.complete r).tmode = s.tmode := rfl
@[simp] theorem State.complete_cfgValid (r : Reply) : (s.complete r).cfgValid = s.cfgValid := rfl
@[simp] theorem State.complete_cfg (r : Reply) : (s.complete r).cfg = s.cfg := rfl
@[simp] theorem State.complete_op (r : Reply) : (s.complete r).op = .none := rfl
@[simp] theorem State.complete_seq (r : Reply) : (s.complete r).seq = .idle := rfl
@[simp] theorem State.complete_len (r : Reply) : (s.complete r).len = s.len := rfl
@[simp] theorem State.complete_nrd (r : Reply) : (s.complete r).nrd = s.nrd := rfl
@[simp] theorem State.complete_maxl (r : Reply) : (s.complete r).maxl = s.maxl := rfl
@[simp] theorem State.complete_cnt (r : Reply) : (s.complete r).cnt = s.cnt := rfl
@[simp] theorem State.complete_fb (r : Reply) : (s.complete r).fb = s.fb := rfl
@[simp] theorem State.complete_csAct (r : Reply) : (s.complete r).csAct = s.csAct := rfl
@[simp] theorem State.complete_msg (r : Reply) : (s.complete r).msg = s.msg := rfl
@[simp] theorem State.complete_dst (r : Reply) : (s.complete r).dst = s.dst := rfl
@[simp] theorem State.complete_hz (r : Reply) : (s.complete r).hz = s.hz := rfl
@[simp] theorem State.complete_div (r : Reply) : (s.complete r).div = s.div := rfl
@[simp] theorem State.complete_port (r : Reply) : (s.complete r).port = s.port := rfl
@[simp] theorem State.complete_ret (r : Reply) : (s.complete r).ret = some r := rfl
@[simp] theorem State.complete_env (r : Reply) : (s.complete r).env = s.env := rfl
@[simp] theorem State.complete_host (r : Reply) : (s.complete r).host = s.host := rfl
@[simp] theorem State.complete_marks (r : Reply) : (s.complete r).marks = s.marks := rfl
@[simp] theorem State.complete_trace (r : Reply) : (s.complete r).trace = s.trace := rfl

/-! `State.abandon` -/

@[simp] theorem State.abandon_par (r : Reason) : (s.abandon r).par = s.par := rfl
@[simp] theorem State.abandon_tmode (r : Reason) : (s.abandon r).tmode = s.tmode := rfl
@[simp] theorem State.abandon_cfgValid (r : Reason) : (s.abandon r).cfgValid = s.cfgValid := rfl
@[simp] theorem State.abandon_cfg (r : Reason) : (s.abandon r).cfg = s.cfg := rfl
@[simp] theorem State.abandon_op (r : Reason) : (s.abandon r).op = .none := rfl
@[simp] theorem State.abandon_seq (r : Reason) : (s.abandon r).seq = .idle := rfl
@[simp] theorem State.abandon_len (r : Reason) : (s.abandon r).len = s.len := rfl
@[simp] theorem State.abandon_nrd (r : Reason) : (s.abandon r).nrd = s.nrd := rfl
@[simp] theorem State.abandon_maxl (r : Reason) : (s.abandon r).maxl = s.maxl := rfl
@[simp] theorem State.abandon_cnt (r : Reason) : (s.abandon r).cnt = s.cnt := rfl
@[simp] theorem State.abandon_fb (r : Reason) : (s.abandon r).fb = s.fb := rfl
@[simp] theorem State.abandon_csAct (r : Reason) : (s.abandon r).csAct = s.csAct := rfl
@[simp] theorem State.abandon_msg (r : Reason) : (s.abandon r).msg = s.msg := rfl
@[simp] theorem State.abandon_dst (r : Reason) : (s.abandon r).dst = s.dst := rfl
@[simp] theorem State.abandon_hz (r : Reason) : (s.abandon r).hz = s.hz := rfl
@[simp] theorem State.abandon_div (r : Reason) : (s.abandon r).div = s.div := rfl
@[simp] theorem State.abandon_port (r : Reason) : (s.abandon r).port = s.port := rfl
@[simp] theorem State.abandon_ret (r : Reason) : (s.abandon r).ret = s.ret := rfl
@[simp] theorem State.abandon_env (r : Reason) : (s.abandon r).env = s.env := rfl
@[simp] theorem State.abandon_host (r : Reason) : (s.abandon r).host = s.host := rfl
@[simp] theorem State.abandon_marks (r : Reason) : (s.abandon r).marks = r :: s.marks := rfl
@[simp] theorem State.abandon_trace (r : Reason) : (s.abandon r).trace = s.trace := rfl

/-! `State.enterHeader` -/

@[simp] theorem State.enterHeader_par (h : Instr) : (s.enterHeader h).par = s.par := rfl
@[simp] theorem State.enterHeader_tmode (h : Instr) : (s.enterHeader h).tmode = s.tmode := rfl
@[simp] theorem State.enterHeader_cfgValid (h : Instr) : (s.enterHeader h).cfgValid = s.cfgValid := rfl
@[simp] theorem State.enterHeader_cfg (h : Instr) : (s.enterHeader h).cfg = s.cfg := rfl
@[simp] theorem State.enterHeader_op (h : Instr) : (s.enterHeader h).op = s.op := rfl
@[simp] theorem State.enterHeader_seq (h : Instr) : (s.enterHeader h).seq = .phase .hdr .tx := rfl
@[simp] theorem State.enterHeader_len (h : Instr) : (s.enterHeader h).len = s.len := rfl
@[simp] theorem State.enterHeader_nrd (h : Instr) : (s.enterHeader h).nrd = s.nrd := rfl
@[simp] theorem State.enterHeader_maxl (h : Instr) : (s.enterHeader h).maxl = s.maxl := rfl
@[simp] theorem State.enterHeader_cnt (h : Instr) : (s.enterHeader h).cnt = 0 := rfl
@[simp] theorem State.enterHeader_fb (h : Instr) : (s.enterHeader h).fb = FrameBuf.ofInstr h := rfl
@[simp] theorem State.enterHeader_csAct (h : Instr) : (s.enterHeader h).csAct = s.csAct := rfl
@[simp] theorem State.enterHeader_msg (h : Instr) : (s.enterHeader h).msg = s.msg := rfl
@[simp] theorem State.enterHeader_dst (h : Instr) : (s.enterHeader h).dst = s.dst := rfl
@[simp] theorem State.enterHeader_hz (h : Instr) : (s.enterHeader h).hz = s.hz := rfl
@[simp] theorem State.enterHeader_div (h : Instr) : (s.enterHeader h).div = s.div := rfl
@[simp] theorem State.enterHeader_port (h : Instr) : (s.enterHeader h).port = s.port := rfl
@[simp] theorem State.enterHeader_ret (h : Instr) : (s.enterHeader h).ret = s.ret := rfl
@[simp] theorem State.enterHeader_env (h : Instr) : (s.enterHeader h).env = s.env := rfl
@[simp] theorem State.enterHeader_host (h : Instr) : (s.enterHeader h).host = s.host := rfl
@[simp] theorem State.enterHeader_marks (h : Instr) : (s.enterHeader h).marks = s.marks := rfl
@[simp] theorem State.enterHeader_trace (h : Instr) : (s.enterHeader h).trace = s.trace := rfl

/-! `State.startCycle` -/

@[simp] theorem State.startCycle_par : s.startCycle.par = s.par := rfl
@[simp] theorem State.startCycle_tmode : s.startCycle.tmode = s.tmode := rfl
@[simp] theorem State.startCycle_cfgValid : s.startCycle.cfgValid = s.cfgValid := rfl
@[simp] theorem State.startCycle_cfg : s.startCycle.cfg = s.cfg := rfl
@[simp] theorem State.startCycle_op : s.startCycle.op = s.op := rfl
@[simp] theorem State.startCycle_seq : s.startCycle.seq = .phase .hdr .tx := rfl
@[simp] theorem State.startCycle_len : s.startCycle.len = s.len := rfl
@[simp] theorem State.startCycle_nrd : s.startCycle.nrd = 0 := rfl
@[simp] theorem State.startCycle_maxl : s.startCycle.maxl = s.maxl := rfl
@[simp] theorem State.startCycle_cnt : s.startCycle.cnt = 0 := rfl
@[simp] theorem State.startCycle_fb : s.startCycle.fb = FrameBuf.ofInstr .hdrRecv := rfl
@[simp] theorem State.startCycle_csAct : s.startCycle.csAct = s.csAct := rfl
@[simp] theorem State.startCycle_msg : s.startCycle.msg = s.msg := rfl
@[simp] theorem State.startCycle_dst : s.startCycle.dst = s.dst := rfl
@[simp] theorem State.startCycle_hz : s.startCycle.hz = s.hz := rfl
@[simp] theorem State.startCycle_div : s.startCycle.div = s.div := rfl
@[simp] theorem State.startCycle_port : s.startCycle.port = s.port := rfl
@[simp] theorem State.startCycle_ret : s.startCycle.ret = s.ret := rfl
@[simp] theorem State.startCycle_env : s.startCycle.env = s.env := rfl
@[simp] theorem State.startCycle_host : s.startCycle.host = s.host := rfl
@[simp] theorem State.startCycle_marks : s.startCycle.marks = s.marks := rfl
@[simp] theorem State.startCycle_trace : s.startCycle.trace = s.trace := rfl

/-! `State.rxStall` -/

@[simp] theorem State.rxStall_par : (s.rxStall).par = s.par := rfl
@[simp] theorem State.rxStall_tmode : (s.rxStall).tmode = s.tmode := rfl
@[simp] theorem State.rxStall_cfgValid : (s.rxStall).cfgValid = s.cfgValid := rfl
@[simp] theorem State.rxStall_cfg : (s.rxStall).cfg = s.cfg := rfl
@[simp] theorem State.rxStall_op : (s.rxStall).op = s.op := rfl
@[simp] theorem State.rxStall_seq : (s.rxStall).seq = s.seq := rfl
@[simp] theorem State.rxStall_len : (s.rxStall).len = s.len := rfl
@[simp] theorem State.rxStall_nrd : (s.rxStall).nrd = s.nrd := rfl
@[simp] theorem State.rxStall_maxl : (s.rxStall).maxl = s.maxl := rfl
@[simp] theorem State.rxStall_cnt : (s.rxStall).cnt = s.cnt := rfl
@[simp] theorem State.rxStall_fb : (s.rxStall).fb = s.fb := rfl
@[simp] theorem State.rxStall_csAct : (s.rxStall).csAct = s.csAct := rfl
@[simp] theorem State.rxStall_msg : (s.rxStall).msg = s.msg := rfl
@[simp] theorem State.rxStall_dst : (s.rxStall).dst = s.dst := rfl
@[simp] theorem State.rxStall_hz : (s.rxStall).hz = s.hz := rfl
@[simp] theorem State.rxStall_div : (s.rxStall).div = s.div := rfl
@[simp] theorem State.rxStall_port : (s.rxStall).port = s.port := rfl
@[simp] theorem State.rxStall_ret : (s.rxStall).ret = s.ret := rfl
@[simp] theorem State.rxStall_env : (s.rxStall).env = s.env.popRx := rfl
@[simp] theorem State.rxStall_host : (s.rxStall).host = s.host := rfl
@[simp] theorem State.rxStall_marks : (s.rxStall).marks = s.marks := rfl
@[simp] theorem State.rxStall_trace : (s.rxStall).trace = s.trace := rfl

/-! `State.rxTake` -/

@[simp] theorem State.rxTake_par (ph : Phase) (v : Octet) : (s.rxTake ph v).par = s.par := rfl
@[simp] theorem State.rxTake_tmode (ph : Phase) (v : Octet) : (s.rxTake ph v).tmode = s.tmode := rfl
@[simp] theorem State.rxTake_cfgValid (ph : Phase) (v : Octet) : (s.rxTake ph v).cfgValid = s.cfgValid := rfl
@[simp] theorem State.rxTake_cfg (ph : Phase) (v : Octet) : (s.rxTake ph v).cfg = s.cfg := rfl
@[simp] theorem State.rxTake_op (ph : Phase) (v : Octet) : (s.rxTake ph v).op = s.op := rfl
@[simp] theorem State.rxTake_seq (ph : Phase) (v : Octet) : (s.rxTake ph v).seq = .phase ph .tx := rfl
@[simp] theorem State.rxTake_len (ph : Phase) (v : Octet) : (s.rxTake ph v).len = s.len := rfl
@[simp] theorem State.rxTake_nrd (ph : Phase) (v : Octet) : (s.rxTake ph v).nrd = s.nrd := rfl
@[simp] theorem State.rxTake_maxl (ph : Phase) (v : Octet) : (s.rxTake ph v).maxl = s.maxl := rfl
@[simp] theorem State.rxTake_cnt (ph : Phase) (v : Octet) : (s.rxTake ph v).cnt = s.cnt + 1 := rfl
@[simp] theorem State.rxTake_fb (ph : Phase) (v : Octet) : (s.rxTake ph v).fb = s.fb := rfl
@[simp] theorem State.rxTake_csAct (ph : Phase) (v : Octet) : (s.rxTake ph v).csAct = s.csAct := rfl
@[simp] theorem State.rxTake_msg (ph : Phase) (v : Octet) : (s.rxTake ph v).msg = s.msg := rfl
@[simp] theorem State.rxTake_dst (ph : Phase) (v : Octet) : (s.rxTake ph v).dst = s.dst := rfl
@[simp] theorem State.rxTake_hz (ph : Phase) (v : Octet) : (s.rxTake ph v).hz = s.hz := rfl
@[simp] theorem State.rxTake_div (ph : Phase) (v : Octet) : (s.rxTake ph v).div = s.div := rfl
@[simp] theorem State.rxTake_port (ph : Phase) (v : Octet) : (s.rxTake ph v).port = s.port := rfl
@[simp] theorem State.rxTake_ret (ph : Phase) (v : Octet) : (s.rxTake ph v).ret = s.ret := rfl
@[simp] theorem State.rxTake_env (ph : Phase) (v : Octet) : (s.rxTake ph v).env = s.env.popRx := rfl
@[simp] theorem State.rxTake_host (ph : Phase) (v : Octet) : (s.rxTake ph v).host = s.host := rfl
@[simp] theorem State.rxTake_marks (ph : Phase) (v : Octet) : (s.rxTake ph v).marks = s.marks := rfl
@[simp] theorem State.rxTake_trace (ph : Phase) (v : Octet) : (s.rxTake ph v).trace = .rx v :: s.trace := rfl

/-! `State.relStep` -/

@[simp] theorem State.relStep_par (ph : Phase) : (s.relStep ph).par = s.par := rfl
@[simp] theorem State.relStep_tmode (ph : Phase) : (s.relStep ph).tmode = s.tmode := rfl
@[simp] theorem State.relStep_cfgValid (ph : Phase) : (s.relStep ph).cfgValid = s.cfgValid := rfl
@[simp] theorem State.relStep_cfg (ph : Phase) : (s.relStep ph).cfg = s.cfg := rfl
@[simp] theorem State.relStep_op (ph : Phase) : (s.relStep ph).op = s.op := rfl
@[simp] theorem State.relStep_seq (ph : Phase) : (s.relStep ph).seq = .phase ph .dly := rfl
@[simp] theorem State.relStep_len (ph : Phase) : (s.relStep ph).len = s.len := rfl
@[simp] theorem State.relStep_nrd (ph : Phase) : (s.relStep ph).nrd = s.nrd := rfl
@[simp] theorem State.relStep_maxl (ph : Phase) : (s.relStep ph).maxl = s.maxl := rfl
@[simp] theorem State.relStep_cnt (ph : Phase) : (s.relStep ph).cnt = s.cnt := rfl
@[simp] theorem State.relStep_fb (ph : Phase) : (s.relStep ph).fb = s.fb := rfl
@[simp] theorem State.relStep_csAct (ph : Phase) : (s.relStep ph).csAct = false := rfl
@[simp] theorem State.relStep_msg (ph : Phase) : (s.relStep ph).msg = s.msg := rfl
@[simp] theorem State.relStep_dst (ph : Phase) : (s.relStep ph).dst = s.dst := rfl
@[simp] theorem State.relStep_hz (ph : Phase) : (s.relStep ph).hz = s.hz := rfl
@[simp] theorem State.relStep_div (ph : Phase) : (s.relStep ph).div = s.div := rfl
@[simp] theorem State.relStep_port (ph : Phase) : (s.relStep ph).port = s.port := rfl
@[simp] theorem State.relStep_ret (ph : Phase) : (s.relStep ph).ret = s.ret := rfl
@[simp] theorem State.relStep_env (ph : Phase) : (s.relStep ph).env = s.env := rfl
@[simp] theorem State.relStep_host (ph : Phase) : (s.relStep ph).host = s.host := rfl
@[simp] theorem State.relStep_marks (ph : Phase) : (s.relStep ph).marks = s.marks := rfl
@[simp] theorem State.relStep_trace (ph : Phase) : (s.relStep ph).trace = .csrel :: s.trace := rfl

/-! `State.dlyStep` -/

@[simp] theorem State.dlyStep_par (ph : Phase) : (s.dlyStep ph).par = s.par := rfl
@[simp] theorem State.dlyStep_tmode (ph : Phase) : (s.dlyStep ph).tmode = s.tmode := rfl
@[simp] theorem State.dlyStep_cfgValid (ph : Phase) : (s.dlyStep ph).cfgValid = s.cfgValid := rfl
@[simp] theorem State.dlyStep_cfg (ph : Phase) : (s.dlyStep ph).cfg = s.cfg := rfl
@[simp] theorem State.dlyStep_op (ph : Phase) : (s.dlyStep ph).op = s.op := rfl
@[simp] theorem State.dlyStep_seq (ph : Phase) : (s.dlyStep ph).seq = .phase ph .hs := rfl
@[simp] theorem State.dlyStep_len (ph : Phase) : (s.dlyStep ph).len = s.len := rfl
@[simp] theorem State.dlyStep_nrd (ph : Phase) : (s.dlyStep ph).nrd = s.nrd := rfl
@[simp] theorem State.dlyStep_maxl (ph : Phase) : (s.dlyStep ph).maxl = s.maxl := rfl
@[simp] theorem State.dlyStep_cnt (ph : Phase) : (s.dlyStep ph).cnt = s.cnt := rfl
@[simp] theorem State.dlyStep_fb (ph : Phase) : (s.dlyStep ph).fb = s.fb := rfl
@[simp] theorem State.dlyStep_csAct (ph : Phase) : (s.dlyStep ph).csAct = s.csAct := rfl
@[simp] theorem State.dlyStep_msg (ph : Phase) : (s.dlyStep ph).msg = s.msg := rfl
@[simp] theorem State.dlyStep_dst (ph : Phase) : (s.dlyStep ph).dst = s.dst := rfl
@[simp] theorem State.dlyStep_hz (ph : Phase) : (s.dlyStep ph).hz = s.hz := rfl
@[simp] theorem State.dlyStep_div (ph : Phase) : (s.dlyStep ph).div = s.div := rfl
@[simp] theorem State.dlyStep_port (ph : Phase) : (s.dlyStep ph).port = s.port := rfl
@[simp] theorem State.dlyStep_ret (ph : Phase) : (s.dlyStep ph).ret = s.ret := rfl
@[simp] theorem State.dlyStep_env (ph : Phase) : (s.dlyStep ph).env = s.env := rfl
@[simp] theorem State.dlyStep_host (ph : Phase) : (s.dlyStep ph).host = s.host := rfl
@[simp] theorem State.dlyStep_marks (ph : Phase) : (s.dlyStep ph).marks = s.marks := rfl
@[simp] theorem State.dlyStep_trace (ph : Phase) : (s.dlyStep ph).trace = .dly s.par.settleIters :: s.trace := rfl

/-! `State.sample` -/

@[simp] theorem State.sample_par : (s.sample).par = s.par := rfl
@[simp] theorem State.sample_tmode : (s.sample).tmode = s.tmode := rfl
@[simp] theorem State.sample_cfgValid : (s.sample).cfgValid = s.cfgValid := rfl
@[simp] theorem State.sample_cfg : (s.sample).cfg = s.cfg := rfl
@[simp] theorem State.sample_op : (s.sample).op = s.op := rfl
@[simp] theorem State.sample_seq : (s.sample).seq = s.seq := rfl
@[simp] theorem State.sample_len : (s.sample).len = s.len := rfl
@[simp] theorem State.sample_nrd : (s.sample).nrd = s.nrd := rfl
@[simp] theorem State.sample_maxl : (s.sample).maxl = s.maxl := rfl
@[simp] theorem State.sample_cnt : (s.sample).cnt = s.cnt := rfl
@[simp] theorem State.sample_fb : (s.sample).fb = s.fb := rfl
@[simp] theorem State.sample_csAct : (s.sample).csAct = s.csAct := rfl
@[simp] theorem State.sample_msg : (s.sample).msg = s.msg := rfl
@[simp] theorem State.sample_dst : (s.sample).dst = s.dst := rfl
@[simp] theorem State.sample_hz : (s.sample).hz = s.hz := rfl
@[simp] theorem State.sample_div : (s.sample).div = s.div := rfl
@[simp] theorem State.sample_port : (s.sample).port = s.port := rfl
@[simp] theorem State.sample_ret : (s.sample).ret = s.ret := rfl
@[simp] theorem State.sample_env : (s.sample).env = s.env.popHs := rfl
@[simp] theorem State.sample_host : (s.sample).host = s.host := rfl
@[simp] theorem State.sample_marks : (s.sample).marks = s.marks := rfl
@[simp] theorem State.sample_trace : (s.sample).trace = .hs s.env.hsSample :: s.trace := rfl

/-! `State.tick` -/

@[simp] theorem State.tick_par : (s.tick).par = s.par := rfl
@[simp] theorem State.tick_tmode : (s.tick).tmode = s.tmode := rfl
@[simp] theorem State.tick_cfgValid : (s.tick).cfgValid = s.cfgValid := rfl
@[simp] theorem State.tick_cfg : (s.tick).cfg = s.cfg := rfl
@[simp] theorem State.tick_op : (s.tick).op = s.op := rfl
@[simp] theorem State.tick_seq : (s.tick).seq = s.seq := rfl
@[simp] theorem State.tick_len : (s.tick).len = s.len := rfl
@[simp] theorem State.tick_nrd : (s.tick).nrd = s.nrd := rfl
@[simp] theorem State.tick_maxl : (s.tick).maxl = s.maxl := rfl
@[simp] theorem State.tick_cnt : (s.tick).cnt = s.cnt := rfl
@[simp] theorem State.tick_fb : (s.tick).fb = s.fb := rfl
@[simp] theorem State.tick_csAct : (s.tick).csAct = s.csAct := rfl
@[simp] theorem State.tick_msg : (s.tick).msg = s.msg := rfl
@[simp] theorem State.tick_dst : (s.tick).dst = s.dst := rfl
@[simp] theorem State.tick_hz : (s.tick).hz = s.hz := rfl
@[simp] theorem State.tick_div : (s.tick).div = s.div := rfl
@[simp] theorem State.tick_port : (s.tick).port = s.port := rfl
@[simp] theorem State.tick_ret : (s.tick).ret = s.ret := rfl
@[simp] theorem State.tick_env : (s.tick).env = s.env := rfl
@[simp] theorem State.tick_host : (s.tick).host = tickHost s.host := rfl
@[simp] theorem State.tick_marks : (s.tick).marks = s.marks := rfl
@[simp] theorem State.tick_trace : (s.tick).trace = s.trace := rfl

/-! `State.writeCfg` -/

@[simp] theorem State.writeCfg_par (w : CfgWrite) : (s.writeCfg w).par = s.par := rfl
@[simp] theorem State.writeCfg_tmode (w : CfgWrite) : (s.writeCfg w).tmode = s.tmode := rfl
@[simp] theorem State.writeCfg_cfgValid (w : CfgWrite) : (s.writeCfg w).cfgValid = s.cfgValid := rfl
@[simp] theorem State.writeCfg_cfg (w : CfgWrite) : (s.writeCfg w).cfg = s.cfg.store w := rfl
@[simp] theorem State.writeCfg_op (w : CfgWrite) : (s.writeCfg w).op = s.op := rfl
@[simp] theorem State.writeCfg_seq (w : CfgWrite) : (s.writeCfg w).seq = s.seq := rfl
@[simp] theorem State.writeCfg_len (w : CfgWrite) : (s.writeCfg w).len = s.len := rfl
@[simp] theorem State.writeCfg_nrd (w : CfgWrite) : (s.writeCfg w).nrd = s.nrd := rfl
@[simp] theorem State.writeCfg_maxl (w : CfgWrite) : (s.writeCfg w).maxl = s.maxl := rfl
@[simp] theorem State.writeCfg_cnt (w : CfgWrite) : (s.writeCfg w).cnt = s.cnt := rfl
@[simp] theorem State.writeCfg_fb (w : CfgWrite) : (s.writeCfg w).fb = s.fb := rfl
@[simp] theorem State.writeCfg_csAct (w : CfgWrite) : (s.writeCfg w).csAct = s.csAct := rfl
@[simp] theorem State.writeCfg_msg (w : CfgWrite) : (s.writeCfg w).msg = s.msg := rfl
@[simp] theorem State.writeCfg_dst (w : CfgWrite) : (s.writeCfg w).dst = s.dst := rfl
@[simp] theorem State.writeCfg_hz (w : CfgWrite) : (s.writeCfg w).hz = s.hz := rfl
@[simp] theorem State.writeCfg_div (w : CfgWrite) : (s.writeCfg w).div = s.div := rfl
@[simp] theorem State.writeCfg_port (w : CfgWrite) : (s.writeCfg w).port = s.port := rfl
@[simp] theorem State.writeCfg_ret (w : CfgWrite) : (s.writeCfg w).ret = s.ret := rfl
@[simp] theorem State.writeCfg_env (w : CfgWrite) : (s.writeCfg w).env = s.env := rfl
@[simp] theorem State.writeCfg_host (w : CfgWrite) : (s.writeCfg w).host = s.host := rfl
@[simp] theorem State.writeCfg_marks (w : CfgWrite) : (s.writeCfg w).marks = s.marks := rfl
@[simp] theorem State.writeCfg_trace (w : CfgWrite) : (s.writeCfg w).trace = .cfg w :: s.trace := rfl

/-! `State.captureLen` -/

@[simp] theorem State.captureLen_par (v : Octet) : (s.captureLen v).par = s.par := rfl
@[simp] theorem State.captureLen_tmode (v : Octet) : (s.captureLen v).tmode = s.tmode := rfl
@[simp] theorem State.captureLen_cfgValid (v : Octet) : (s.captureLen v).cfgValid = s.cfgValid := rfl
@[simp] theorem State.captureLen_cfg (v : Octet) : (s.captureLen v).cfg = s.cfg := rfl
@[simp] theorem State.captureLen_op (v : Octet) : (s.captureLen v).op = s.op := rfl
@[simp] theorem State.captureLen_seq (v : Octet) : (s.captureLen v).seq = .phase .len .tx := rfl
@[simp] theorem State.captureLen_len (v : Octet) : (s.captureLen v).len = if s.cnt.toNat = 3 then decLen (s.fb.set s.cnt.toNat v).b0 (s.fb.set s.cnt.toNat v).b1 else s.len := rfl
@[simp] theorem State.captureLen_nrd (v : Octet) : (s.captureLen v).nrd = s.nrd := rfl
@[simp] theorem State.captureLen_maxl (v : Octet) : (s.captureLen v).maxl = s.maxl := rfl
@[simp] theorem State.captureLen_cnt (v : Octet) : (s.captureLen v).cnt = s.cnt + 1 := rfl
@[simp] theorem State.captureLen_fb (v : Octet) : (s.captureLen v).fb = s.fb.set s.cnt.toNat v := rfl
@[simp] theorem State.captureLen_csAct (v : Octet) : (s.captureLen v).csAct = s.csAct := rfl
@[simp] theorem State.captureLen_msg (v : Octet) : (s.captureLen v).msg = s.msg := rfl
@[simp] theorem State.captureLen_dst (v : Octet) : (s.captureLen v).dst = s.dst := rfl
@[simp] theorem State.captureLen_hz (v : Octet) : (s.captureLen v).hz = s.hz := rfl
@[simp] theorem State.captureLen_div (v : Octet) : (s.captureLen v).div = s.div := rfl
@[simp] theorem State.captureLen_port (v : Octet) : (s.captureLen v).port = s.port := rfl
@[simp] theorem State.captureLen_ret (v : Octet) : (s.captureLen v).ret = s.ret := rfl
@[simp] theorem State.captureLen_env (v : Octet) : (s.captureLen v).env = s.env.popRx := rfl
@[simp] theorem State.captureLen_host (v : Octet) : (s.captureLen v).host = s.host := rfl
@[simp] theorem State.captureLen_marks (v : Octet) : (s.captureLen v).marks = s.marks := rfl
@[simp] theorem State.captureLen_trace (v : Octet) : (s.captureLen v).trace = .rx v :: s.trace := rfl

/-! `State.resetBlock` -/

@[simp] theorem State.resetBlock_par : (s.resetBlock).par = s.par := rfl
@[simp] theorem State.resetBlock_tmode : (s.resetBlock).tmode = .off := rfl
@[simp] theorem State.resetBlock_cfgValid : (s.resetBlock).cfgValid = false := rfl
@[simp] theorem State.resetBlock_cfg : (s.resetBlock).cfg = Cfg.reset := rfl
@[simp] theorem State.resetBlock_op : (s.resetBlock).op = .none := rfl
@[simp] theorem State.resetBlock_seq : (s.resetBlock).seq = .idle := rfl
@[simp] theorem State.resetBlock_len : (s.resetBlock).len = 0 := rfl
@[simp] theorem State.resetBlock_nrd : (s.resetBlock).nrd = 0 := rfl
@[simp] theorem State.resetBlock_maxl : (s.resetBlock).maxl = 0 := rfl
@[simp] theorem State.resetBlock_cnt : (s.resetBlock).cnt = 0 := rfl
@[simp] theorem State.resetBlock_fb : (s.resetBlock).fb = ⟨0, 0, 0, 0⟩ := rfl
@[simp] theorem State.resetBlock_csAct : (s.resetBlock).csAct = false := rfl
@[simp] theorem State.resetBlock_msg : (s.resetBlock).msg = s.msg := rfl
@[simp] theorem State.resetBlock_dst : (s.resetBlock).dst = s.dst := rfl
@[simp] theorem State.resetBlock_hz : (s.resetBlock).hz = 0 := rfl
@[simp] theorem State.resetBlock_div : (s.resetBlock).div = 0 := rfl
@[simp] theorem State.resetBlock_port : (s.resetBlock).port = s.port := rfl
@[simp] theorem State.resetBlock_ret : (s.resetBlock).ret = s.ret := rfl
@[simp] theorem State.resetBlock_env : (s.resetBlock).env = s.env := rfl
@[simp] theorem State.resetBlock_host : (s.resetBlock).host = s.host := rfl
@[simp] theorem State.resetBlock_marks : (s.resetBlock).marks = s.marks := rfl
@[simp] theorem State.resetBlock_trace : (s.resetBlock).trace = s.trace := rfl

/-! `State.scramble` -/

@[simp] theorem State.scramble_par : (s.scramble).par = s.par := rfl
@[simp] theorem State.scramble_tmode : (s.scramble).tmode = s.tmode := rfl
@[simp] theorem State.scramble_cfgValid : (s.scramble).cfgValid = s.cfgValid := rfl
@[simp] theorem State.scramble_cfg : (s.scramble).cfg = s.cfg := rfl
@[simp] theorem State.scramble_op : (s.scramble).op = s.op := rfl
@[simp] theorem State.scramble_seq : (s.scramble).seq = s.seq := rfl
@[simp] theorem State.scramble_len : (s.scramble).len = s.len := rfl
@[simp] theorem State.scramble_nrd : (s.scramble).nrd = s.nrd := rfl
@[simp] theorem State.scramble_maxl : (s.scramble).maxl = s.maxl := rfl
@[simp] theorem State.scramble_cnt : (s.scramble).cnt = s.cnt := rfl
@[simp] theorem State.scramble_fb : (s.scramble).fb = s.fb := rfl
@[simp] theorem State.scramble_csAct : (s.scramble).csAct = s.csAct := rfl
@[simp] theorem State.scramble_msg : (s.scramble).msg = s.msg := rfl
@[simp] theorem State.scramble_dst : (s.scramble).dst = Memory.ofCells (Config.freeDst s.env.draws) := rfl
@[simp] theorem State.scramble_hz : (s.scramble).hz = s.hz := rfl
@[simp] theorem State.scramble_div : (s.scramble).div = s.div := rfl
@[simp] theorem State.scramble_port : (s.scramble).port = s.port := rfl
@[simp] theorem State.scramble_ret : (s.scramble).ret = s.ret := rfl
@[simp] theorem State.scramble_env : (s.scramble).env = { tx := [], rx := [], hs := [], clk := [], draws := s.env.draws + 1 } := rfl
@[simp] theorem State.scramble_host : (s.scramble).host = s.host := rfl
@[simp] theorem State.scramble_marks : (s.scramble).marks = s.marks := rfl
@[simp] theorem State.scramble_trace : (s.scramble).trace = s.trace := rfl

end Sys2Proof.Machine
end

