-- ==== Sys2Proof/Laws/Memory.lean ====
section
/-! SUPPORT. The laws of the destination memory: read after write, and that every operation keeps the canonical form. -/

namespace Sys2Proof.Machine

@[simp] theorem Memory.read_nil (i : Nat) : Memory.read [] i = memoryDefault := rfl

@[simp] theorem Memory.read_cons (a i : Nat) (v : Octet) (r : Memory) :
    Memory.read ((a, v) :: r) i = if a = i then v else Memory.read r i := rfl

/-- Every listed index is at least `n`. -/
def Memory.above (n : Nat) (m : Memory) : Prop := ∀ c ∈ m, n ≤ c.1

theorem Memory.wf_cons (a : Nat) (v : Octet) (r : Memory) :
    Memory.wf ((a, v) :: r) = true ↔ v ≠ memoryDefault ∧ Memory.above (a + 1) r ∧ Memory.wf r = true := by
  induction r generalizing a v with
  | nil => simp [Memory.wf, Memory.above]
  | cons c r ih =>
    obtain ⟨b, w⟩ := c
    simp only [Memory.wf, Bool.and_eq_true, bne_iff_ne, ne_eq, decide_eq_true_eq]
    rw [ih]
    constructor
    · rintro ⟨⟨hv, hab⟩, hw, hr, hwf⟩
      refine ⟨hv, ?_, hw, hr, hwf⟩
      intro c hc
      rcases List.mem_cons.mp hc with rfl | hc
      · exact hab
      · exact Nat.le_trans (by omega) (hr c hc)
    · rintro ⟨hv, hr, hw⟩
      exact ⟨⟨hv, hr (b, w) (by simp)⟩, hw⟩

theorem Memory.read_above {n i : Nat} {m : Memory} (h : Memory.above n m) (hi : i < n) : m.read i = memoryDefault := by
  induction m with
  | nil => rfl
  | cons c r ih =>
    obtain ⟨a, v⟩ := c
    have ha : n ≤ a := h (a, v) (by simp)
    have hne : a ≠ i := by omega
    simpa [hne] using ih (fun c hc => h c (List.mem_cons_of_mem _ hc))

theorem Memory.above_mono {n k : Nat} {m : Memory} (h : Memory.above n m) (hk : k ≤ n) : Memory.above k m :=
  fun c hc => Nat.le_trans hk (h c hc)

theorem Memory.above_put {n i : Nat} {v : Octet} {r : Memory} (hi : n ≤ i) (hr : Memory.above n r) :
    Memory.above n (Memory.put i v r) := by
  unfold Memory.put
  split
  · exact hr
  · intro c hc
    rcases List.mem_cons.mp hc with rfl | hc
    · exact hi
    · exact hr c hc

theorem Memory.above_write {n i : Nat} {v : Octet} {m : Memory} (hi : n ≤ i) (hm : Memory.above n m) :
    Memory.above n (m.write i v) := by
  induction m with
  | nil => exact Memory.above_put hi hm
  | cons c r ih =>
    obtain ⟨a, w⟩ := c
    have hr : Memory.above n r := fun c hc => hm c (List.mem_cons_of_mem _ hc)
    simp only [Memory.write]
    split
    · exact Memory.above_put hi hm
    · split
      · exact Memory.above_put hi hr
      · intro c hc
        rcases List.mem_cons.mp hc with rfl | hc
        · exact hm (a, w) (by simp)
        · exact ih hr c hc

theorem Memory.wf_put {i : Nat} {v : Octet} {r : Memory} (ha : Memory.above (i + 1) r) (hr : Memory.wf r = true) :
    Memory.wf (Memory.put i v r) = true := by
  unfold Memory.put
  split
  · exact hr
  · next hv => exact (Memory.wf_cons i v r).mpr ⟨hv, ha, hr⟩

/-- A write keeps the canonical form. -/
theorem Memory.wf_write {m : Memory} (i : Nat) (v : Octet) (h : Memory.wf m = true) : Memory.wf (m.write i v) = true := by
  induction m with
  | nil => exact Memory.wf_put (by intro c hc; simp at hc) rfl
  | cons c r ih =>
    obtain ⟨a, w⟩ := c
    obtain ⟨hw, ha, hr⟩ := (Memory.wf_cons a w r).mp h
    simp only [Memory.write]
    split
    · next hi =>
      refine Memory.wf_put ?_ h
      intro c hc
      rcases List.mem_cons.mp hc with rfl | hc
      · exact hi
      · exact Nat.le_trans (by omega) (ha c hc)
    · split
      · next _ he => subst he; exact Memory.wf_put ha hr
      · next h1 h2 => exact (Memory.wf_cons a w _).mpr ⟨hw, Memory.above_write (by omega) ha, ih hr⟩

@[simp] theorem Memory.read_put_same (i : Nat) (v : Octet) (r : Memory) (h : r.read i = memoryDefault) :
    (Memory.put i v r).read i = v := by
  unfold Memory.put
  split
  · next hv => rw [h, hv]
  · simp

theorem Memory.read_put_other {i j : Nat} (v : Octet) (r : Memory) (h : i ≠ j) : (Memory.put i v r).read j = r.read j := by
  unfold Memory.put
  split
  · rfl
  · simp [h]

/-- A read after a write to the same index gives the octet written. -/
theorem Memory.read_write_same {m : Memory} (i : Nat) (v : Octet) (h : Memory.wf m = true) : (m.write i v).read i = v := by
  induction m with
  | nil => exact Memory.read_put_same i v [] rfl
  | cons c r ih =>
    obtain ⟨a, w⟩ := c
    obtain ⟨_, ha, hr⟩ := (Memory.wf_cons a w r).mp h
    simp only [Memory.write]
    split
    · next hi =>
      apply Memory.read_put_same
      have hne : a ≠ i := by omega
      simpa [hne] using Memory.read_above ha (by omega)
    · split
      · next _ he => subst he; exact Memory.read_put_same _ _ _ (Memory.read_above ha (by omega))
      · next _ he => simpa [he] using ih hr

/-- A write leaves every other index alone. -/
theorem Memory.read_write_other {m : Memory} {i j : Nat} (v : Octet) (h : i ≠ j) : (m.write i v).read j = m.read j := by
  induction m with
  | nil => exact Memory.read_put_other v [] h
  | cons c r ih =>
    obtain ⟨a, w⟩ := c
    simp only [Memory.write]
    split
    · exact Memory.read_put_other v _ h
    · split
      · next _ he =>
        subst he
        rw [Memory.read_put_other v r h]
        simp [h]
      · simp [ih]

/-- The memory that cells make is in canonical form. -/
theorem Memory.wf_ofCells (cs : List Host.Cell) : Memory.wf (Memory.ofCells cs) = true := by
  induction cs with
  | nil => rfl
  | cons c r ih => exact Memory.wf_write _ _ ih

/-- Normalisation keeps the canonical form. -/
theorem Memory.wf_normalise {m : Memory} (n : Nat) (h : Memory.wf m = true) : Memory.wf (m.normalise n) = true := by
  induction n with
  | zero => exact h
  | succ n ih =>
    simp only [Memory.normalise]
    split
    · exact Memory.wf_write _ _ ih
    · exact ih

/-- Everything normalisation does: below `n` a carriage return or line feed reads as a space, and all else reads as before. -/
theorem Memory.read_normalise {m : Memory} (n i : Nat) (h : Memory.wf m = true) :
    (m.normalise n).read i = if i < n ∧ isEol (m.read i) = true then Config.space else m.read i := by
  induction n with
  | zero => simp [Memory.normalise]
  | succ n ih =>
    simp only [Memory.normalise]
    by_cases hin : n = i
    · subst hin
      have hself : (m.normalise n).read n = m.read n := by rw [ih]; simp
      rw [hself]
      split
      · next he => rw [Memory.read_write_same _ _ (Memory.wf_normalise n h)]; simp [he]
      · next he => simp [hself, he]
    · have hlt : i < n + 1 ↔ i < n := by omega
      simp only [hlt]
      split
      · rw [Memory.read_write_other _ hin, ih]
      · exact ih

/-- Post-processing keeps the canonical form. -/
theorem Memory.wf_postProcess {m : Memory} (len : Len15) (maxl : BitVec Config.maxlW) (h : Memory.wf m = true) :
    Memory.wf (postProcess m len maxl) = true := by
  unfold postProcess
  split
  · exact Memory.wf_normalise _ (Memory.wf_write _ _ h)
  · exact h

/-- The canonical form is unique: memories that read alike are equal. -/
theorem Memory.ext_of_wf {m k : Memory} (hm : Memory.wf m = true) (hk : Memory.wf k = true)
    (h : ∀ i, m.read i = k.read i) : m = k := by
  induction m generalizing k with
  | nil =>
    cases k with
    | nil => rfl
    | cons c r =>
      obtain ⟨b, w⟩ := c
      exact absurd (by simpa using (h b).symm) ((Memory.wf_cons b w r).mp hk).1
  | cons c r ih =>
    obtain ⟨a, v⟩ := c
    obtain ⟨hv, har, hr⟩ := (Memory.wf_cons a v r).mp hm
    cases k with
    | nil => exact absurd (by simpa using h a) hv
    | cons d q =>
      obtain ⟨b, w⟩ := d
      obtain ⟨hw, hbq, hq⟩ := (Memory.wf_cons b w q).mp hk
      have hab : a = b := by
        rcases Nat.lt_trichotomy a b with hlt | he | hlt
        · have hb : b ≠ a := by omega
          have := h a
          simp only [Memory.read_cons, if_true, if_neg hb, Memory.read_above hbq (Nat.lt_succ_of_lt hlt)] at this
          exact absurd this hv
        · exact he
        · have hb : a ≠ b := by omega
          have := h b
          simp only [Memory.read_cons, if_true, if_neg hb, Memory.read_above har (Nat.lt_succ_of_lt hlt)] at this
          exact absurd this.symm hw
      subst hab
      have hvw : v = w := by simpa using h a
      subst hvw
      have hrq : r = q := by
        apply ih hr hq
        intro i
        by_cases hi : a = i
        · subst hi
          rw [Memory.read_above har (by omega), Memory.read_above hbq (by omega)]
        · simpa [hi] using h i
      rw [hrq]

end Sys2Proof.Machine
end

