-- ==== Sys2Proof/Laws/Ops.lean ====
section
/-! SUPPORT. For each shared operation one lemma that says everything it can do. -/

namespace Sys2Proof.Machine

variable {s t : State}

/-- The environment with an answer listed gives that answer and drops it. -/
@[simp] theorem Env.txReady_cons (e : Env) (b : Bool) (r : List Bool) : Env.txReady { e with tx := b :: r } = b := rfl

@[simp] theorem Env.popTx_cons (e : Env) (b : Bool) (r : List Bool) : Env.popTx { e with tx := b :: r } = { e with tx := r } := rfl

@[simp] theorem Env.rxAnswer_cons (e : Env) (v : Option Octet) (r : List (Option Octet)) :
    Env.rxAnswer { e with rx := v :: r } = v := rfl

@[simp] theorem Env.popRx_cons (e : Env) (v : Option Octet) (r : List (Option Octet)) :
    Env.popRx { e with rx := v :: r } = { e with rx := r } := rfl

@[simp] theorem Env.hsSample_cons (e : Env) (b : Bool) (r : List Bool) : Env.hsSample { e with hs := b :: r } = b := rfl

@[simp] theorem Env.popHs_cons (e : Env) (b : Bool) (r : List Bool) : Env.popHs { e with hs := b :: r } = { e with hs := r } := rfl

@[simp] theorem Env.clockHz_cons (e : Env) (f : Nat) (r : List Nat) : Env.clockHz { e with clk := f :: r } = f := rfl

@[simp] theorem Env.popClk_cons (e : Env) (f : Nat) (r : List Nat) : Env.popClk { e with clk := f :: r } = { e with clk := r } := rfl

/-- The payload count is the lesser of the two: it fits 15 bits because `LEN` does. -/
theorem payloadCount_toNat (len : Len15) (maxl : BitVec Config.maxlW) : (payloadCount len maxl).toNat = min len.toNat maxl.toNat := by
  have := len.isLt
  simp only [payloadCount, BitVec.toNat_ofNat]
  omega

/-- The payload count is within both bounds (R37). -/
theorem payloadCount_le (len : Len15) (maxl : BitVec Config.maxlW) :
    (payloadCount len maxl).toNat ≤ len.toNat ∧ (payloadCount len maxl).toNat ≤ maxl.toNat := by
  rw [payloadCount_toNat]; omega

/-- What the invariant says of `NRD` in a `RECV`: within both bounds at every step, the lesser of the two from the Payload phase on, clear before it. -/
theorem nrdFits_recv (h : nrdFits s = true) (ho : s.op = .recv) :
    s.nrd.toNat ≤ s.len.toNat ∧ s.nrd.toNat ≤ s.maxl.toNat ∧
      ((∃ st, s.seq = .phase .pay st) ∨ s.seq = .post ∨ s.seq = .loop → s.nrd = payloadCount s.len s.maxl) ∧
      ((∃ st, s.seq = .phase .hdr st ∨ s.seq = .phase .len st) → s.nrd = 0) := by
  simp only [nrdFits, ho, bne_self_eq_false, Bool.false_or, Bool.and_eq_true, Nat.ble_eq] at h
  refine ⟨h.1.1, h.1.2, ?_, ?_⟩
  · rintro (⟨st, hq⟩ | hq | hq) <;> simpa [hq] using h.2
  · rintro ⟨st, hq | hq⟩ <;> simpa [hq] using h.2

/-- A `(ph, TX)` step sends its octet, or is stalled. -/
theorem State.txStep_cases (s : State) (ph : Phase) (b : Octet) :
    (s.env.txReady = true ∧ s.txStep ph b =
      { s with env := s.env.popTx, trace := .tx b :: s.trace, csAct := true, seq := .phase ph .rx }) ∨
    (s.env.txReady = false ∧ s.txStep ph b = { s with env := s.env.popTx }) := by
  unfold State.txStep
  cases h : s.env.txReady
  · right; simp
  · left; simp

/-- A discarding `(ph, RX)` step takes the octet, or is stalled. -/
theorem State.rxDiscard_cases (s : State) (ph : Phase) :
    (∃ v, s.env.rxAnswer = some v ∧ s.rxDiscard ph = s.rxTake ph v) ∨
    (s.env.rxAnswer = none ∧ s.rxDiscard ph = s.rxStall) := by
  unfold State.rxDiscard
  cases h : s.env.rxAnswer with
  | none => right; simp
  | some v => left; exact ⟨v, rfl, rfl⟩

/-- A store to the destination is in range, or a fault. -/
theorem State.dstWrite_cases (s : State) (i : Nat) (v : Octet) :
    (i < s.maxl.toNat ∧ s.dstWrite i v = .ok { s with dst := s.dst.write i v }) ∨
    (s.maxl.toNat ≤ i ∧ s.dstWrite i v = .error .dstRange) := by
  unfold State.dstWrite
  by_cases h : i < s.maxl.toNat
  · left; simp [h]
  · right; exact ⟨by omega, by simp [h]⟩

/-- A payload octet is captured at `CNT` below `MAXL`, or a fault. -/
theorem State.capturePay_cases (s : State) (v : Octet) :
    (s.cnt.toNat < s.maxl.toNat ∧
      s.capturePay v = .next (State.rxTake { s with dst := s.dst.write s.cnt.toNat v } .pay v)) ∨
    (s.maxl.toNat ≤ s.cnt.toNat ∧ s.capturePay v = .fault .dstRange) := by
  unfold State.capturePay
  rcases s.dstWrite_cases s.cnt.toNat v with ⟨h, e⟩ | ⟨h, e⟩
  · left; exact ⟨h, by rw [e]⟩
  · right; exact ⟨h, by rw [e]⟩

/-- A sample goes on when it reads Ready, and stays when it does not. -/
theorem State.hsStep_cases (s : State) (after : State → State) :
    (s.env.hsSample = true ∧ s.hsStep after = after { s.sample with cnt := 0 }) ∨
    (s.env.hsSample = false ∧ s.hsStep after = s.sample) := by
  unfold State.hsStep
  cases h : s.env.hsSample
  · right; simp
  · left; simp

/-- If the transfer of a fixed frame answers a next state, it is one of two steps in its own phase. -/
theorem sendFrame_cases {o : Op} {ph : Phase} {bs : List Octet} (h : sendFrame o ph bs s = .next t) :
    s.op = o ∧
      ((∃ b, s.seq = .phase ph .tx ∧ bs[s.cnt.toNat]? = some b ∧ t = s.txStep ph b) ∨
        (s.seq = .phase ph .rx ∧ t = s.rxDiscard ph)) := by
  unfold sendFrame at h
  split at h
  · next ho =>
    refine ⟨ho, ?_⟩
    split at h
    · next hq =>
      left
      cases hb : bs[s.cnt.toNat]? with
      | none => rw [hb] at h; cases h
      | some b => rw [hb] at h; cases h; exact ⟨b, hq, rfl, rfl⟩
    · split at h
      · next hq => right; cases h; exact ⟨hq, rfl⟩
      · cases h
  · cases h

/-- If `LEN_IN` answers a next state, it captured octet `CNT` of its frame. -/
theorem execLenIn_cases {u : BitVec 1} {l : BitVec 7} {h v m : Octet} (e : execLenIn u l h v m s = .next t) :
    s.op = .recv ∧ s.seq = .phase .len .rx ∧
      ∃ b, (encode (.lenIn u l h v m))[s.cnt.toNat]? = some b ∧ t = s.captureLen b := by
  unfold execLenIn at e
  split at e
  · next hs =>
    refine ⟨hs.1, hs.2, ?_⟩
    cases hb : (encode (.lenIn u l h v m))[s.cnt.toNat]? with
    | none => rw [hb] at e; cases e
    | some b => rw [hb] at e; cases e; exact ⟨b, rfl, rfl⟩
  · cases e

/-- If `PAY_OUT` answers a next state, it is one of two steps of the Payload phase of `SEND`. -/
theorem execPayOut_cases {d : Octet} (e : execPayOut d s = .next t) :
    s.op = .send ∧
      ((s.seq = .phase .pay .tx ∧ s.cnt.toNat < s.octetCount .pay ∧ t = s.txStep .pay d) ∨
        (s.seq = .phase .pay .rx ∧ t = s.rxDiscard .pay)) := by
  unfold execPayOut at e
  split at e
  · next ho =>
    refine ⟨ho, ?_⟩
    split at e
    · next hq =>
      split at e
      · next hc => cases e; exact Or.inl ⟨hq, hc, rfl⟩
      · cases e
    · split at e
      · next hq => cases e; exact Or.inr ⟨hq, rfl⟩
      · cases e
  · cases e

/-- If `PAY_IN` answers a next state, it stored its octet at `CNT` below `MAXL`. -/
theorem execPayIn_cases {d : Octet} (e : execPayIn d s = .next t) :
    s.op = .recv ∧ s.seq = .phase .pay .rx ∧ s.cnt.toNat < s.maxl.toNat ∧
      t = State.rxTake { s with dst := s.dst.write s.cnt.toNat d } .pay d := by
  unfold execPayIn at e
  split at e
  · next hs =>
    rcases s.capturePay_cases d with ⟨hc, he⟩ | ⟨_, he⟩
    · rw [he] at e; cases e; exact ⟨hs.1, hs.2, hc, rfl⟩
    · rw [he] at e; cases e
  · cases e

/-- If the read half of a filler exchange answers a next state, it is a stall or a capture. -/
theorem fillRead_cases {ph : Phase} (e : fillRead ph s = .next t) :
    (s.env.rxAnswer = none ∧ t = s.rxStall) ∨
    (∃ v, s.env.rxAnswer = some v ∧ ph = .len ∧ t = s.captureLen v) ∨
    (∃ v, s.env.rxAnswer = some v ∧ ph ≠ .len ∧ s.cnt.toNat < s.maxl.toNat ∧
      t = State.rxTake { s with dst := s.dst.write s.cnt.toNat v } .pay v) := by
  unfold fillRead at e
  cases hr : s.env.rxAnswer with
  | none => rw [hr] at e; cases e; exact Or.inl ⟨rfl, rfl⟩
  | some v =>
    rw [hr] at e
    by_cases hp : ph = .len
    · simp only [hp, if_true] at e; cases e; exact Or.inr (Or.inl ⟨v, rfl, hp, rfl⟩)
    · simp only [hp, if_false] at e
      rcases s.capturePay_cases v with ⟨hc, he⟩ | ⟨_, he⟩
      · rw [he] at e; cases e; exact Or.inr (Or.inr ⟨v, rfl, hp, hc, rfl⟩)
      · rw [he] at e; cases e

/-- If `FILL` answers a next state, it sent filler or it is the read half of a filler exchange, in a phase that is filled. -/
theorem execFill_cases (e : execFill s = .next t) :
    s.op = .recv ∧ ∃ ph, (ph = .len ∨ ph = .pay) ∧
      ((s.seq = .phase ph .tx ∧ s.cnt.toNat < s.octetCount ph ∧ t = s.txStep ph Config.filler) ∨
        (s.seq = .phase ph .rx ∧ fillRead ph s = .next t)) := by
  unfold execFill at e
  split at e
  · next ho =>
    refine ⟨ho, ?_⟩
    split at e
    · next ph hf =>
      have hq : s.seq = .phase ph .tx ∧ (ph = .len ∨ ph = .pay) := by
        unfold fillPhase at hf
        split at hf <;> simp_all
      split at e
      · next hc => cases e; exact ⟨ph, hq.2, Or.inl ⟨hq.1, hc, rfl⟩⟩
      · cases e
    · next ph st hne hf =>
      have hq : s.seq = .phase ph .rx ∧ (ph = .len ∨ ph = .pay) := by
        unfold fillPhase at hf
        split at hf <;> simp_all
      exact ⟨ph, hq.2, Or.inr ⟨hq.1, e⟩⟩
    · cases e
  · cases e

/-- If a step of `SEND` that moves no octet answers a next state, it is one of these. -/
theorem sendStep_cases (e : sendStep s = .next t) :
    (s.seq = .mode ∧ t = sendModeStep s) ∨
    (∃ ph, s.seq = .phase ph .tx ∧ s.octetCount ph ≤ s.cnt.toNat ∧ t = s.goto (.phase ph .rel)) ∨
    (∃ ph, s.seq = .phase ph .rel ∧ t = s.relStep ph) ∨
    (∃ ph, s.seq = .phase ph .dly ∧ t = s.dlyStep ph) ∨
    (∃ ph, s.seq = .phase ph .hs ∧ t = s.hsStep (sendAfter ph)) := by
  unfold sendStep at e
  split at e
  case h_1 h => cases e; exact Or.inl ⟨h, rfl⟩
  case h_2 ph h =>
    split at e
    · cases e
    · next hc => cases e; exact Or.inr (Or.inl ⟨ph, h, by omega, rfl⟩)
  case h_4 ph h => cases e; exact Or.inr (Or.inr (Or.inl ⟨ph, h, rfl⟩))
  case h_5 ph h => cases e; exact Or.inr (Or.inr (Or.inr (Or.inl ⟨ph, h, rfl⟩)))
  case h_6 ph h => cases e; exact Or.inr (Or.inr (Or.inr (Or.inr ⟨ph, h, rfl⟩)))
  all_goals cases e

/-- If a step of `RECV` that moves no octet answers a next state, it is one of these. -/
theorem recvStep_cases (e : recvStep s = .next t) :
    (∃ ph, s.seq = .phase ph .tx ∧ s.octetCount ph ≤ s.cnt.toNat ∧ t = s.goto (.phase ph .rel)) ∨
    (∃ ph, s.seq = .phase ph .rel ∧ t = s.relStep ph) ∨
    (∃ ph, s.seq = .phase ph .dly ∧ t = s.dlyStep ph) ∨
    (∃ ph, s.seq = .phase ph .hs ∧ t = s.hsStep (recvAfter ph)) ∨
    (s.seq = .post ∧ t = recvPostStep s) ∨
    (s.seq = .loop ∧ t = recvLoopStep s) := by
  unfold recvStep at e
  split at e
  case h_1 ph h =>
    split at e
    · cases e
    · next hc => cases e; exact Or.inl ⟨ph, h, by omega, rfl⟩
  case h_3 ph h => cases e; exact Or.inr (Or.inl ⟨ph, h, rfl⟩)
  case h_4 ph h => cases e; exact Or.inr (Or.inr (Or.inl ⟨ph, h, rfl⟩))
  case h_5 ph h => cases e; exact Or.inr (Or.inr (Or.inr (Or.inl ⟨ph, h, rfl⟩)))
  case h_6 h => cases e; exact Or.inr (Or.inr (Or.inr (Or.inr (Or.inl ⟨h, rfl⟩))))
  case h_7 h => cases e; exact Or.inr (Or.inr (Or.inr (Or.inr (Or.inr ⟨h, rfl⟩))))
  all_goals cases e

/-- If a step of `INIT` answers a next state, it reads the clock or writes a field. -/
theorem initStep_cases (e : initStep s = .next t) :
    (s.seq = .clk ∧ t = clkStep s) ∨ (∃ k, s.seq = .cfgw k ∧ t = cfgStep s k) := by
  unfold initStep at e
  split at e
  case h_1 h => cases e; exact Or.inl ⟨h, rfl⟩
  case h_2 k h => cases e; exact Or.inr ⟨k, h, rfl⟩
  all_goals cases e

/-- If `SEND` answers a next state, it took a request or a step of its own. -/
theorem execSend_cases (e : execSend s = .next t) :
    (∃ r, s.port = some r ∧ t = acceptSend r s.clearPort) ∨ (s.port = none ∧ s.op = .send ∧ sendStep s = .next t) := by
  unfold execSend at e
  cases hp : s.port with
  | some r => rw [hp] at e; cases e; exact Or.inl ⟨r, rfl, rfl⟩
  | none =>
    rw [hp] at e
    by_cases ho : s.op = .send
    · simp only [ho, if_true] at e; exact Or.inr ⟨rfl, ho, e⟩
    · simp only [ho, if_false] at e; cases e

/-- If `RECV` answers a next state, it took a request or a step of its own. -/
theorem execRecv_cases (e : execRecv s = .next t) :
    (∃ r, s.port = some r ∧ t = acceptRecv r s.clearPort) ∨ (s.port = none ∧ s.op = .recv ∧ recvStep s = .next t) := by
  unfold execRecv at e
  cases hp : s.port with
  | some r => rw [hp] at e; cases e; exact Or.inl ⟨r, rfl, rfl⟩
  | none =>
    rw [hp] at e
    by_cases ho : s.op = .recv
    · simp only [ho, if_true] at e; exact Or.inr ⟨rfl, ho, e⟩
    · simp only [ho, if_false] at e; cases e

/-- If `INIT` answers a next state, it took a request or a step of its own. -/
theorem execInit_cases (e : execInit s = .next t) :
    (∃ r, s.port = some r ∧ t = acceptInit r s.clearPort) ∨ (s.port = none ∧ s.op = .init ∧ initStep s = .next t) := by
  unfold execInit at e
  cases hp : s.port with
  | some r => rw [hp] at e; cases e; exact Or.inl ⟨r, rfl, rfl⟩
  | none =>
    rw [hp] at e
    by_cases ho : s.op = .init
    · simp only [ho, if_true] at e; exact Or.inr ⟨rfl, ho, e⟩
    · simp only [ho, if_false] at e; cases e

/-- Acceptance of `SEND`: three refusals in order, or the request is taken. -/
theorem acceptSend_cases (r : Request) (s : State) :
    (r.wf = false ∧ acceptSend r s = s.mark .tooLong) ∨
    (r.wf = true ∧ s.busy = true ∧ acceptSend r s = s.mark .busy) ∨
    (r.wf = true ∧ s.busy = false ∧ s.cfgValid = false ∧ acceptSend r s = s.mark .notInitialised) ∨
    (r.wf = true ∧ s.busy = false ∧ s.cfgValid = true ∧
      acceptSend r s = { s with op := .send, seq := .mode, msg := r.msg }) := by
  unfold acceptSend
  cases hw : r.wf <;> cases hb : s.busy <;> cases hv : s.cfgValid <;> simp

/-- Acceptance of `RECV`: two refusals in order, or the request is taken. -/
theorem acceptRecv_cases (r : Request) (s : State) :
    (s.busy = true ∧ acceptRecv r s = s.mark .busy) ∨
    (s.busy = false ∧ s.cfgValid = false ∧ acceptRecv r s = s.mark .notInitialised) ∨
    (s.busy = false ∧ s.cfgValid = true ∧ acceptRecv r s =
      State.startCycle { s with op := .recv, maxl := r.maxLen, dst := lentDst r s }) := by
  unfold acceptRecv
  cases hb : s.busy <;> cases hv : s.cfgValid <;> simp

/-- Acceptance of `INIT`: two refusals in order, or the request is taken. -/
theorem acceptInit_cases (r : Request) (s : State) :
    (s.busy = true ∧ acceptInit r s = s.mark .busy) ∨
    (s.busy = false ∧ r.hz = 0 ∧ acceptInit r s = s.mark .badClock) ∨
    (s.busy = false ∧ r.hz ≠ 0 ∧ acceptInit r s = { s with op := .init, seq := .clk, hz := r.hz }) := by
  unfold acceptInit
  cases hb : s.busy <;> by_cases hz : r.hz = 0 <;> simp [hz]

/-- The divider exists exactly when the quotient is not zero and the divider fits its width. -/
theorem divider_ok_iff (divW f hz d : Nat) :
    divider divW f hz = .ok d ↔ clockQuotient f hz = d + 1 ∧ d < 2 ^ divW := by
  unfold divider
  split
  · next h => simp [h]
  · split
    · next h1 h2 => simp only [Except.ok.injEq]; omega
    · next h1 h2 =>
      constructor
      · intro h; cases h
      · rintro ⟨h3, h4⟩; omega

/-- What an act of the host does. -/
theorem State.hostStep_cases (s : State) (a : Act) (rest : List HostAct) :
    (∃ r, a = .issue r ∧ s.hostStep a rest = { s with host := rest, port := some r }) ∨
    (∃ r, a = .recvUnlessOn r ∧ s.ret = some (.mode .on) ∧ s.hostStep a rest = { s with host := rest }) ∨
    (∃ r, a = .recvUnlessOn r ∧ s.ret ≠ some (.mode .on) ∧
      s.hostStep a rest = { s with host := rest, port := some { r with code := 0b10 } }) ∨
    (a = .rst ∧ s.hostStep a rest = State.applyReset { s with host := rest }) := by
  cases a with
  | issue r => exact Or.inl ⟨r, rfl, rfl⟩
  | recvUnlessOn r =>
    by_cases h : s.ret = some (.mode .on)
    · exact Or.inr (Or.inl ⟨r, rfl, h, by simp [State.hostStep, h]⟩)
    · exact Or.inr (Or.inr (Or.inl ⟨r, rfl, h, by simp [State.hostStep, h]⟩))
  | rst => exact Or.inr (Or.inr (Or.inr ⟨rfl, rfl⟩))

/-- If a step answers a next state, the configuration receives, and the step took a request, or an act of the host, or was idle, or ran a row. -/
theorem step_cases (e : step s = .next t) :
    s.par.supportsReceive = true ∧
      ((∃ r, s.port = some r ∧ exec (decodeCommand r.code) s = .next t) ∨
        (∃ a rest, s.port = none ∧ s.hostDue = some (a, rest) ∧ t = s.hostStep a rest) ∨
        (s.port = none ∧ s.hostDue = none ∧ engineFetch s = .idle ∧ t = s.tick) ∨
        (∃ i, s.port = none ∧ s.hostDue = none ∧ engineFetch s = .run i ∧ exec i s.tick = .next t)) := by
  unfold step at e
  split at e
  · next hp =>
    refine ⟨hp, ?_⟩
    cases hr : s.port with
    | some r => rw [hr] at e; exact Or.inl ⟨r, rfl, e⟩
    | none =>
      rw [hr] at e
      cases hd : s.hostDue with
      | some p =>
        obtain ⟨a, rest⟩ := p
        rw [hd] at e; cases e
        exact Or.inr (Or.inl ⟨a, rest, rfl, rfl, rfl⟩)
      | none =>
        rw [hd] at e
        simp only [engineStep] at e
        cases hf : engineFetch s with
        | idle => rw [hf] at e; cases e; exact Or.inr (Or.inr (Or.inl ⟨rfl, rfl, rfl, rfl⟩))
        | run i => rw [hf] at e; exact Or.inr (Or.inr (Or.inr ⟨i, rfl, rfl, rfl, e⟩))
        | bad f => rw [hf] at e; cases e
  · cases e

end Sys2Proof.Machine
end

