-- ==== Sys2Proof/Laws/PerInstr.lean ====
section
/-! SUPPORT. A statement about every instruction as syntax, one lemma per row: its octets are as many as its row of the table has bits for. -/

namespace Sys2Proof.Laws.Width

/-- The encoding has the octets of its row: four for a frame, one for a payload octet and for a command code padded with zeros (R80, R91, R93). -/
def Statement (i : Instr) : Prop := (encode i).length = ((tableRow i).nbits + 7) / 8

theorem hdrSend : Statement .hdrSend := by simp [Statement, encode, tableRow]

theorem hdrRecv : Statement .hdrRecv := by simp [Statement, encode, tableRow]

theorem lenOut (l : BitVec 7) (h : Octet) : Statement (.lenOut l h) := by simp [Statement, encode, tableRow]

theorem lenIn (u : BitVec 1) (l : BitVec 7) (h v m : Octet) : Statement (.lenIn u l h v m) := by simp [Statement, encode, tableRow]

theorem payOut (d : Octet) : Statement (.payOut d) := by simp [Statement, encode, tableRow]

theorem fill : Statement .fill := by simp [Statement, encode, tableRow]

theorem payIn (d : Octet) : Statement (.payIn d) := by simp [Statement, encode, tableRow]

theorem init : Statement .init := by simp [Statement, encode, tableRow]

theorem send : Statement .send := by simp [Statement, encode, tableRow]

theorem recv : Statement .recv := by simp [Statement, encode, tableRow]

theorem query : Statement .query := by simp [Statement, encode, tableRow]

end Sys2Proof.Laws.Width
end

