-- ==== Sys2Proof/Tests/Slice0.lean ====
section
/-! SUPPORT. The model's own tests. Expected results come from the words of `30_encoding.md`, the tables of `95_test_vectors.md` (named in each comment) and the rules of spec/; then one witness for every statement that has hypotheses. -/

namespace Sys2Proof.Tests

open Machine

/-! ## Small states -/

/-- Parameters with the literals that 95_test_vectors.md uses, and a divider field of 12 bits. -/
def par0 : Params where
  enableCmd := [0x41, 0x54, 0x2B, 0x43, 0x49, 0x50, 0x53, 0x45, 0x4E, 0x44, 0x0D, 0x0A]
  endSentinel := [0x2B, 0x2B, 0x2B]
  settleIters := 7
  shortIters := 5
  divW := 12
  ssIndex := 2
  csIdle := true
  pinSet := [2, 3, 4, 5]
  hsReadyLevel := true
  supportsReceive := true

/-- After reset, with those parameters. -/
def fresh : State := { State.reset with par := par0 }

/-- The start state of the vectors: after a completed `INIT`. -/
def ready : State :=
  { fresh with
    cfgValid := true
    cfg := { fmtBits := 8, fmtMsbFirst := true, fmtLines := 1, div := 1999, csIdle := true, csMode := .auto, ssSel := 2, pinsEn := [2, 3, 4, 5] } }

/-- A `SEND` of a message, at a step. -/
def sending (q : Seq) (t : TMode) (m : List Octet) : State :=
  { ready with op := .send, seq := q, tmode := t, msg := m, len := sendLen par0 m }

/-- `NRD` at a step of a `RECV`: `min(LEN, MAXL)` once it is written. -/
def nrdAt (q : Seq) (len : Len15) (maxl : BitVec 32) : Len15 :=
  match q with
  | .phase .hdr _ => 0
  | .phase .len _ => 0
  | _ => payloadCount len maxl

/-- A `RECV` at a step, with `LEN` and `MAXL`. -/
def receiving (q : Seq) (len : Len15) (maxl : BitVec 32) : State :=
  { ready with op := .recv, seq := q, len := len, maxl := maxl, nrd := nrdAt q len maxl }

/-- An `INIT` at a step, asked for with a serial clock, in an environment that answers a clock frequency. -/
def initing (q : Seq) (hz f : Nat) : State :=
  { fresh with op := .init, seq := q, hz := hz, env := { Env.free with clk := [f] } }

/-- A destination of octets from index 0. -/
def dstOf (i : Nat) : List Octet → Memory
  | [] => []
  | v :: r => Memory.put i v (dstOf (i + 1) r)

/-- The first octets of the destination. -/
def octetsOfDst (m : Memory) (n : Nat) : List Octet := (List.range n).map m.read

/-- The state a step answers; the state before it where the step stops. -/
def after (s : State) (o : Host.Outcome State Fault Refusal) : State :=
  match o with
  | .next t => t
  | .fault _ => s
  | .refused _ => s

/-- The message `m1` of 95_test_vectors.md M. -/
def m1 : List Octet := [0x41, 0x54, 0x2B, 0x43, 0x49, 0x50, 0x53, 0x45, 0x4E, 0x44, 0x0D, 0x0A]

/-- The message `m2`. -/
def m2 : List Octet := [0x2B, 0x2B, 0x2B, 0x0D, 0x0A]

/-- The message `m3`. -/
def m3 : List Octet := [0x41, 0x54, 0x0D, 0x0A]

/-! ## Decoding: words written out bit by bit (R81 to R93) -/

theorem test_decode_hdrSend :
    decodeAt .header [0b00000010, 0b00000000, 0b00000000, 0b00000000] = .ok .hdrSend := by decide

theorem test_decode_hdrRecv :
    decodeAt .header [0b00000001, 0b00000000, 0b00000000, 0b00000000] = .ok .hdrRecv := by decide

/-- E1 of the vectors: `L = 200` is `48 01 00 41`. -/
theorem test_decode_lenOut :
    decodeAt .lengthOut [0b01001000, 0b00000001, 0b00000000, 0b01000001] = .ok (.lenOut 0b1001000 0b00000001) := by decide

/-- E2: `86 00 00 42` has bit 7 set; the fields below it are 6 and 0. -/
theorem test_decode_lenIn :
    decodeAt .lengthIn [0b10000110, 0b00000000, 0b00000000, 0b01000010] =
      .ok (.lenIn 0b1 0b0000110 0b00000000 0b00000000 0b01000010) := by decide

theorem test_decode_payOut : decodeAt .payloadOut [0b01010101] = .ok (.payOut 0b01010101) := by decide

theorem test_decode_fill : decodeAt .filler [0b00000000] = .ok .fill := by decide

theorem test_decode_payIn : decodeAt .payloadIn [0b00001101] = .ok (.payIn 0b00001101) := by decide

theorem test_decode_init : decodeAt .command [0b00] = .ok .init := by decide

theorem test_decode_send : decodeAt .command [0b01] = .ok .send := by decide

theorem test_decode_recv : decodeAt .command [0b10] = .ok .recv := by decide

theorem test_decode_query : decodeAt .command [0b11] = .ok .query := by decide

/-- Encodings the table does not have are refused by name. -/
theorem test_decode_rejects :
    decodeAt .header [0x03, 0x00, 0x00, 0x00] = .error .headerOpcode ∧
    decodeAt .header [0x02, 0x00, 0x01, 0x00] = .error .headerReserved ∧
    decodeAt .header [0x02, 0x00, 0x00] = .error .octetCount ∧
    decodeAt .lengthOut [0x83, 0x00, 0x00, 0x41] = .error .lengthBit7 ∧
    decodeAt .lengthOut [0x03, 0x00, 0x01, 0x41] = .error .lengthReserved ∧
    decodeAt .lengthOut [0x03, 0x00, 0x00, 0x42] = .error .lengthMarker ∧
    decodeAt .filler [0x01] = .error .fillerOctet ∧
    decodeAt .command [0x04] = .error .commandCode := by decide

/-- E1, some rows of the table. -/
theorem test_encLen :
    encLen 127 = [0x7F, 0x00, 0x00, 0x41] ∧ encLen 128 = [0x00, 0x01, 0x00, 0x41] ∧ encLen 255 = [0x7F, 0x01, 0x00, 0x41] ∧
    encLen 1000 = [0x68, 0x07, 0x00, 0x41] ∧ encLen 16384 = [0x00, 0x80, 0x00, 0x41] ∧ encLen 32767 = [0x7F, 0xFF, 0x00, 0x41] := by decide

/-- E2, some rows of the table. -/
theorem test_decLen :
    decLen 0x2C 0x02 = 300 ∧ decLen 0x7F 0xFF = 32767 ∧ decLen 0x80 0x00 = 0 ∧ decLen 0x86 0x00 = 6 ∧ decLen 0xFF 0xFF = 32767 := by decide

/-! ## Well-formedness: an ill-formed term for each check -/

theorem test_request_too_long : Request.wf { code := 0b01, msg := List.replicate 32768 0x41 } = false := by
  simp only [Request.wf, List.length_replicate]; decide

theorem test_request_longest : Request.wf { code := 0b01, msg := List.replicate 32767 0x41 } = true := by
  simp only [Request.wf, List.length_replicate]; decide

theorem test_params_wf : par0.wf = true := by decide

theorem test_params_sentinel_length : Params.wf { par0 with endSentinel := [0x2B, 0x2B] } = false := by decide

theorem test_params_sentinel_eol : Params.wf { par0 with endSentinel := [0x2B, 0x0D, 0x2B] } = false := by decide

theorem test_params_enable_empty : Params.wf { par0 with enableCmd := [] } = false := by decide

theorem test_params_enable_too_long : Params.wf { par0 with enableCmd := List.replicate 32768 0x41 } = false := by
  simp [-List.reduceReplicate, Params.wf, paramsOk, enableOk, Config.lenMax]

theorem test_params_enable_is_sentinel : Params.wf { par0 with enableCmd := m2 } = false := by decide

theorem test_params_divider_width : Params.wf { par0 with divW := 0 } = false := by decide

theorem test_params_pins : Params.wf { par0 with pinSet := [3, 2] } = false := by decide

theorem test_params_receive : Params.wf { par0 with supportsReceive := false } = false := by decide

/-! ## The two comparisons and the mode step -/

/-- The predicate table of M. -/
theorem test_predicates :
    isEnable par0 m1 = true ∧ isEnable par0 (m1.take 10) = false ∧ isEnable par0 (m1.take 10 ++ [0x0A]) = false ∧
    isEndSentinel par0 [0x2B, 0x2B, 0x2B] = true ∧ isEndSentinel par0 m2 = true ∧
    isEndSentinel par0 [0x2B, 0x2B, 0x2B, 0x0D, 0x0A, 0x0D, 0x0A] = true ∧
    isEndSentinel par0 [0x2B, 0x2B, 0x2B, 0x61] = false ∧ isEndSentinel par0 [0x2B, 0x2B] = false ∧
    isEndSentinel par0 [0x20, 0x2B, 0x2B, 0x2B] = false ∧ isEndSentinel par0 [] = false := by decide

/-- M1 to M9. -/
theorem test_mode_step :
    [TMode.off, .on, .ending].map (fun t => [m1, m2, m3].map fun m => ((modeStep par0 t m).1, (sendLen par0 m).toNat)) =
      [[(.on, 12), (.off, 3), (.off, 4)], [(.on, 12), (.ending, 3), (.on, 4)], [(.on, 12), (.off, 3), (.off, 4)]] := by decide

/-! ## One step of each row -/

/-- T1: the first octet of a `SEND` is 02. -/
theorem test_hdrSend_sends :
    (after ready (exec .hdrSend { sending (.phase .hdr .tx) .off m3 with env := { Env.free with tx := [true] } })).trace = [.tx 0x02] := by
  decide

/-- R175: the octet that comes back is dropped; R186: `CNT` advances. -/
theorem test_hdrSend_drops :
    let t := after ready (exec .hdrSend { sending (.phase .hdr .rx) .off m3 with env := { Env.free with rx := [some 0xA5] } })
    t.trace = [.rx 0xA5] ∧ t.cnt = 1 ∧ t.seq = .phase .hdr .tx := by decide

/-- P1: the first octet of a `RECV` cycle is 01. -/
theorem test_hdrRecv_sends :
    (after ready (exec .hdrRecv { receiving (.phase .hdr .tx) 0 16 with env := { Env.free with tx := [true] } })).trace = [.tx 0x01] := by
  decide

/-- R185: with no free slot nothing is sent. -/
theorem test_hdrRecv_stalls :
    let t := after ready (exec .hdrRecv { receiving (.phase .hdr .tx) 0 16 with env := { Env.free with tx := [false] } })
    t.trace = [] ∧ t.seq = .phase .hdr .tx := by decide

/-- T4: the last octet of the Length frame of 200 is 41. -/
theorem test_lenOut_marker :
    (after ready (exec (.lenOut 0x48 0x01)
      { sending (.phase .len .tx) .off m3 with cnt := 3, env := { Env.free with tx := [true] } })).trace = [.tx 0x41] := by decide

/-- P5: the frame `2C 02 00 42` decodes to 300. -/
theorem test_lenIn_decodes :
    let t := after ready (exec (.lenIn 0 0x2C 0x02 0x00 0x42)
      { receiving (.phase .len .rx) 0 16 with cnt := 3, fb := ⟨0x2C, 0x02, 0x00, 0x00⟩, env := { Env.free with rx := [some 0x42] } })
    t.len.toNat = 300 ∧ t.fb = ⟨0x2C, 0x02, 0x00, 0x42⟩ := by decide

/-- The first three octets leave `LEN`. -/
theorem test_lenIn_captures :
    let t := after ready (exec (.lenIn 0 0x2C 0x02 0x00 0x00)
      { receiving (.phase .len .rx) 5 16 with cnt := 1, fb := ⟨0x2C, 0x00, 0x00, 0x00⟩, env := { Env.free with rx := [some 0x02] } })
    t.len.toNat = 5 ∧ t.fb = ⟨0x2C, 0x02, 0x00, 0x00⟩ ∧ t.cnt = 2 := by decide

/-- T3: a payload octet is sent as it is. -/
theorem test_payOut_sends :
    (after ready (exec (.payOut 0x2B) { sending (.phase .pay .tx) .on m2 with cnt := 2, env := { Env.free with tx := [true] } })).trace =
      [.tx 0x2B] := by decide

/-- T3: a fourth payload octet of the forced length is no step of the row. -/
theorem test_payOut_ends : exec (.payOut 0x0D) { sending (.phase .pay .tx) .on m2 with cnt := 3 } = .fault .outOfPhase := rfl

/-- R89: filler is 00. -/
theorem test_fill_sends :
    (after ready (exec .fill { receiving (.phase .pay .tx) 6 16 with cnt := 5, env := { Env.free with tx := [true] } })).trace = [.tx 0x00] := by
  decide

/-- R185: with no valid octet the exchange waits. -/
theorem test_fill_waits :
    let t := after ready (exec .fill { receiving (.phase .pay .rx) 6 16 with cnt := 5, env := { Env.free with rx := [none] } })
    t.trace = [] ∧ t.cnt = 5 ∧ t.seq = .phase .pay .rx := by decide

/-- V5: octet 1 of the payload goes to index 1. -/
theorem test_payIn_stores :
    let t := after ready (exec (.payIn 0x0D)
      { receiving (.phase .pay .rx) 5 16 with cnt := 1, dst := dstOf 0 [0x41, 0xEE, 0xEE], env := { Env.free with rx := [some 0x0D] } })
    octetsOfDst t.dst 3 = [0x41, 0x0D, 0xEE] ∧ t.cnt = 2 := by decide

/-- I1: the divider is 1999. -/
theorem test_init_divider : (after ready (exec .init (initing .clk 80000 320000000))).div = 1999 := by decide

/-- I6 and I8: no divider, and a divider too large. -/
theorem test_init_refusals :
    (after ready (exec .init (initing .clk 8000001 16000000))).marks = [.badClock] ∧
    (after ready (exec .init (initing .clk 1000 320000000))).marks = [.divRange] := by decide

/-- M5, and the frame that will be sent next: `On` and the sentinel give `Ending` and `LEN = 3`. -/
theorem test_send_mode :
    let t := after ready (exec .send (sending .mode .on m2))
    t.tmode = .ending ∧ t.len = 3 ∧ t.fb = ⟨0x02, 0x00, 0x00, 0x00⟩ ∧ t.trace = [] := by decide

/-- R-1 and R-6: the refusals of `SEND`, `BUSY` before `NOT_INITIALISED`. -/
theorem test_send_refusals :
    (after ready (exec .send { fresh with port := some { code := 0b01, msg := m3 } })).marks = [.notInitialised] ∧
    (after ready (exec .send { initing (.cfgw 2) 80000 0 with port := some { code := 0b01, msg := m3 } })).marks = [.busy] := by decide

/-- V3, V5, V7: post-processing. -/
theorem test_recv_post :
    octetsOfDst (after ready (exec .recv { receiving .post 4 16 with dst := dstOf 0 [0x0D, 0x0A, 0x0D, 0x0A, 0xEE, 0xEE] })).dst 6 =
      [0x20, 0x20, 0x0D, 0x0A, 0x00, 0xEE] ∧
    octetsOfDst (after ready (exec .recv { receiving .post 5 16 with dst := dstOf 0 [0x41, 0x0D, 0x42, 0x0A, 0x0D, 0xEE] })).dst 6 =
      [0x41, 0x20, 0x42, 0x0A, 0x0D, 0x00] ∧
    octetsOfDst (after ready (exec .recv { receiving .post 4 4 with dst := dstOf 0 [0x0D, 0x0A, 0x4F, 0x4B] })).dst 4 =
      [0x0D, 0x0A, 0x4F, 0x4B] := by decide

/-- P4: Ready at the loop sample starts a new cycle, with the request opcode in the frame buffer. R37, log 9: a `RECV` with a smaller `maxLen` does not
see the `NRD` of the one before. -/
theorem test_recv_starts_a_cycle :
    (let t := after ready (exec .recv { receiving .loop 6 16 with env := { Env.free with hs := [true] } })
     t.seq = .phase .hdr .tx ∧ t.fb = ⟨0x01, 0x00, 0x00, 0x00⟩ ∧ t.trace = [.hs true]) ∧
    (let t := after ready (exec .recv { ready with nrd := 10, len := 10, maxl := 10, port := some { code := 0b10, maxLen := 2 } })
     t.maxl = 2 ∧ t.nrd.toNat ≤ t.maxl.toNat) := by decide

/-- I10, R-3: `QUERY` before `INIT`, and in mid-`SEND`. -/
theorem test_query :
    (after ready (exec .query { fresh with port := some { code := 0b11 } })).ret = some (.mode .off) ∧
    (after ready (exec .query { sending (.phase .len .hs) .on m1 with port := some { code := 0b11 } })).ret = some (.mode .on) := by decide

/-- R216: `TRANSACT` is a `SEND`, a `QUERY`, and a `RECV` by the console's policy; the first is due while the block is idle. -/
theorem test_transact :
    (after ready (step { ready with host := transact m3 16 none })).port = some { code := 0b01, msg := m3 } ∧
    (transact m3 16 none).map HostAct.act =
      [.issue { code := 0b01, msg := m3 }, .issue { code := 0b11 }, .recvUnlessOn { code := 0b10, maxLen := 16 }] := by decide

/-- A fetched word runs as the next step: the header of a `SEND` sends 02 from reset. -/
theorem test_fetch_word : (State.withFetchWord fresh 32 0x02000000).seq = .phase .hdr .tx ∧
    (after fresh (step (State.withFetchWord fresh 32 0x02000000))).trace = [.tx 0x02] := by decide

/-! ## Witnesses: the hypotheses of every statement can be met, each clause at a boundary of its range -/

/-- A `SEND` of `m3` at a step of its first phase's kind, with the frame of the phase in the buffer. -/
def sendAt (ph : Phase) (st : Sub) (f : Instr) : State :=
  { sending (.phase ph st) .off m3 with fb := FrameBuf.ofInstr f }

/-- A `RECV` in its Header phase, with the frame of the phase in the buffer. -/
def recvHdr (st : Sub) : State := { receiving (.phase .hdr st) 0 16 with fb := FrameBuf.ofInstr .hdrRecv }

/-- The state with listed answers of the environment. -/
def answers (s : State) (tx : List Bool) (rx : List (Option Octet)) (hs : List Bool) : State :=
  { s with env := { Env.free with tx := tx, rx := rx, hs := hs } }

theorem witness_DecodeUndoesEncode : Instr.wf (.lenOut 0x7F 0xFF) = true := by decide

theorem witness_EncodeUndoesDecode :
    decodeAt .lengthOut [0x7F, 0xFF, 0x00, 0x41] = .ok (.lenOut 0x7F 0xFF) := by decide

theorem witness_WordsOfTheMaster : (0x7FFF0041 : Nat) < 2 ^ 32 ∧
    decodeAt .lengthOut (octetsOf 4 0x7FFF0041) = .ok (.lenOut 0x7F 0xFF) := by decide

theorem witness_LengthRoundTrip : (0x7F : Octet).toNat < 0x80 := by decide

theorem witness_ComparisonsMeanWhatTheySay : sentinelOk par0.endSentinel = true ∧ par0.wf = true := by decide

theorem witness_ModeTable : par0.wf = true ∧ isEnable par0 m1 = true ∧ isEndSentinel par0 m2 = true ∧
    isEnable par0 m3 = false ∧ isEndSentinel par0 m3 = false := by decide

theorem witness_ModeStepFixesModeAndLength :
    let s := sending .mode .on m2
    s.op = .send ∧ s.seq = .mode ∧ s.port = none ∧ s.host = [] := by decide

theorem witness_EndingIsLeftFirst :
    (let s := sending .mode .ending m1
     s.op = .send ∧ s.seq = .mode ∧ s.port = none ∧ s.tmode = .ending ∧ s.msg = s.par.enableCmd) ∧
    (let s := sending .mode .ending m2
     s.op = .send ∧ s.seq = .mode ∧ s.port = none ∧ s.tmode = .ending ∧ s.msg ≠ s.par.enableCmd) := by decide

theorem witness_EnableTurnsOn :
    let s := sending .mode .off m1
    s.par.wf = true ∧ s.op = .send ∧ s.seq = .mode ∧ s.port = none ∧ s.tmode = .off ∧ s.msg = s.par.enableCmd := by decide

theorem witness_SentinelEndsAndForcesThree :
    let s := sending .mode .on m2
    s.op = .send ∧ s.seq = .mode ∧ s.port = none ∧ s.tmode = .on ∧ isEndSentinel s.par s.msg = true := by decide

/-- The last octet of each frame, and the last payload octet. -/
theorem witness_MasterOctetIsSent :
    (let s := { answers (sendAt .hdr .tx .hdrSend) [true] [] [] with cnt := 3 }
     s.env.txReady = true ∧ s.op = .send ∧ s.seq = .phase .hdr .tx ∧ [(0x02 : Octet), 0x00, 0x00, 0x00][s.cnt.toNat]? = some 0x00) ∧
    (let s := answers (recvHdr .tx) [true] [] []
     s.env.txReady = true ∧ s.op = .recv ∧ s.seq = .phase .hdr .tx ∧ [(0x01 : Octet), 0x00, 0x00, 0x00][s.cnt.toNat]? = some 0x01) ∧
    (let s := { answers (sendAt .len .tx (.lenOut 4 0)) [true] [] [] with cnt := 3 }
     s.env.txReady = true ∧ s.op = .send ∧ s.seq = .phase .len .tx ∧
       [BitVec.ofNat 8 (4 : BitVec 7).toNat, (0 : Octet), 0x00, 0x41][s.cnt.toNat]? = some 0x41) ∧
    (let s := { answers (sendAt .pay .tx (.lenOut 4 0)) [true] [] [] with cnt := 3 }
     s.env.txReady = true ∧ s.op = .send ∧ s.seq = .phase .pay .tx ∧ s.cnt.toNat < s.len.toNat) := by decide

theorem witness_FillerIsZero :
    (let s := { answers (receiving (.phase .len .tx) 0 16) [true] [] [] with cnt := 3 }
     s.op = .recv ∧ s.env.txReady = true ∧ s.seq = .phase .len .tx ∧ s.cnt.toNat < 4) ∧
    (let s := { answers (receiving (.phase .pay .tx) 6 5) [true] [] [] with cnt := 4 }
     s.op = .recv ∧ s.env.txReady = true ∧ s.seq = .phase .pay .tx ∧ s.cnt.toNat < s.nrd.toNat) := by decide

theorem witness_ReturnedOctetIsDropped :
    (let s := answers (sendAt .hdr .rx .hdrSend) [] [some 0xFF] []
     s.env.rxAnswer = some 0xFF ∧ s.op = .send ∧ s.seq = .phase .hdr .rx) ∧
    (let s := answers (recvHdr .rx) [] [some 0xFF] []
     s.env.rxAnswer = some 0xFF ∧ s.op = .recv ∧ s.seq = .phase .hdr .rx) ∧
    (let s := answers (sendAt .len .rx (.lenOut 4 0)) [] [some 0xFF] []
     s.env.rxAnswer = some 0xFF ∧ s.op = .send ∧ s.seq = .phase .len .rx) ∧
    (let s := answers (sendAt .pay .rx (.lenOut 4 0)) [] [some 0xFF] []
     s.env.rxAnswer = some 0xFF ∧ s.op = .send ∧ s.seq = .phase .pay .rx) := by decide

theorem sendAt_inv : Inv (answers (sendAt .hdr .tx .hdrSend) [false] [] []) :=
  ⟨by decide, by decide, by decide, by decide, by decide, by decide, by decide, by decide, by decide, by decide, by decide⟩

/-- A `SEND` that waits for the octet that comes back against the last octet of its payload. -/
def waitingSend : State :=
  { answers (sendAt .pay .rx (.lenOut 4 0)) [] [none] [] with cnt := 3, csAct := true, trace := [.tx 0x0A] }

theorem waitingSend_inv : Inv waitingSend :=
  ⟨by decide, by decide, by decide, by decide, by decide, by decide, by decide, by decide, by decide, by decide, by decide⟩

theorem witness_NotReadyIsRetried :
    (let s := answers (sendAt .hdr .tx .hdrSend) [false] [] []
     s.port = none ∧ engineFetch s = .run .hdrSend ∧ Inv s ∧ s.seq = .phase .hdr .tx ∧ s.cnt.toNat < s.octetCount .hdr ∧
       s.env.txReady = false) ∧
    (waitingSend.port = none ∧ engineFetch waitingSend = .run (.payOut 0x0A) ∧ Inv waitingSend ∧
      waitingSend.seq = .phase .pay .rx ∧ waitingSend.env.rxAnswer = none) :=
  ⟨⟨by decide, by decide, sendAt_inv, by decide, by decide, by decide⟩,
    by decide, by decide, waitingSend_inv, by decide, by decide⟩

theorem witness_LengthOctetIsCaptured :
    ∀ c : Fin 4,
      let s := { receiving (.phase .len .rx) 0 16 with cnt := BitVec.ofNat 15 c.val }
      s.op = .recv ∧ s.seq = .phase .len .rx ∧ s.cnt.toNat = c.val := by decide

theorem witness_PayloadOctetIsStored :
    let s := { receiving (.phase .pay .rx) 6 5 with cnt := 4, dst := dstOf 0 [0xEE, 0xEE] }
    Memory.wf s.dst = true ∧ s.op = .recv ∧ s.seq = .phase .pay .rx ∧ s.cnt.toNat < s.maxl.toNat := by decide

theorem witness_BoundaryReleasesThenWaits :
    (∀ ph ∈ [Phase.hdr, .len, .pay],
      (sending (.phase ph .rel) .off m3).port = none ∧ (sending (.phase ph .rel) .off m3).op = .send ∧
      (receiving (.phase ph .dly) 0 16).port = none ∧ (receiving (.phase ph .dly) 0 16).op = .recv) ∧
    (sending (.phase .hdr .rel) .off m3).seq = .phase .hdr .rel ∧ (receiving (.phase .pay .dly) 0 16).seq = .phase .pay .dly := by decide

/-- A full Header phase, and an empty Payload phase in either operation. -/
theorem witness_EveryPhaseHasItsBoundary :
    (let s := { sending (.phase .hdr .tx) .off m3 with cnt := 4 }
     s.port = none ∧ s.seq = .phase .hdr .tx ∧ s.cnt.toNat = s.octetCount .hdr ∧ s.op = .send) ∧
    (let s := sending (.phase .pay .tx) .off []
     s.port = none ∧ s.seq = .phase .pay .tx ∧ s.cnt.toNat = s.octetCount .pay ∧ s.op = .send) ∧
    (let s := receiving (.phase .pay .tx) 6 0
     s.port = none ∧ s.seq = .phase .pay .tx ∧ s.cnt.toNat = s.octetCount .pay ∧ s.op = .recv) := by decide

theorem witness_NeverReadyNeverLeaves :
    let s := answers (sending (.phase .len .hs) .on m1) [] [] [false, false, true]
    s.par.supportsReceive = true ∧ s.port = none ∧ s.host = [] ∧ (s.op = .send ∨ s.op = .recv) ∧ s.seq = .phase .len .hs ∧
      s.env.hs = List.replicate 2 false ++ [true] ∧ 2 ≤ 2 := by decide

theorem witness_ReadySampleGoesOnInSend :
    ∀ ph ∈ [Phase.hdr, .len, .pay],
      let s := answers (sending (.phase ph .hs) .off m3) [] [] [true]
      s.port = none ∧ s.op = .send ∧ s.env.hsSample = true ∧ s.seq = .phase ph .hs := by decide

theorem witness_ReadySampleGoesOnInRecv :
    ∀ ph ∈ [Phase.hdr, .len, .pay],
      let s := answers (receiving (.phase ph .hs) 6 16) [] [] [true]
      s.port = none ∧ s.op = .recv ∧ s.env.hsSample = true ∧ s.seq = .phase ph .hs := by decide

/-- Also with `LEN = MAXL`, where the two are one. -/
theorem witness_PayloadCountIsTheLesser :
    let s := answers (receiving (.phase .len .hs) 16 16) [] [] [true]
    s.port = none ∧ s.op = .recv ∧ s.seq = .phase .len .hs ∧ s.env.hsSample = true := by decide

theorem witness_SendIsTakenOrTurnedAway :
    (let s := { ready with port := some { code := 0b01, msg := m3 } }
     s.port = some { code := 0b01, msg := m3 } ∧ m3.length ≤ 32767 ∧ s.op = .none ∧ s.cfgValid = true) ∧
    (let s := { initing (.cfgw 2) 80000 0 with port := some { code := 0b01, msg := [] } }
     s.port = some { code := 0b01, msg := [] } ∧ ([] : List Octet).length ≤ 32767 ∧ s.op ≠ .none) ∧
    (let s := { fresh with port := some { code := 0b01, msg := m3 } }
     s.port = some { code := 0b01, msg := m3 } ∧ m3.length ≤ 32767 ∧ s.op = .none ∧ s.cfgValid = false) := by decide

/-- A message of any length can stand on the port: of 32767 octets, the longest that is taken, and of 32768. -/
theorem witness_SendIsTakenOrTurnedAway_length (n : Nat) :
    ∃ m : List Octet, m.length = n ∧ ({ ready with port := some { code := 0b01, msg := m } } : State).port = some { code := 0b01, msg := m } :=
  ⟨List.replicate n 0x41, List.length_replicate, rfl⟩

theorem witness_RecvIsTakenOrTurnedAway :
    (let s := { ready with port := some { code := 0b10, maxLen := 0 } }
     s.port = some { code := 0b10, maxLen := 0 } ∧ s.op = .none ∧ s.cfgValid = true) ∧
    (let r : Request := { code := 0b10, maxLen := 16, dst := some [(0, 0xEE)] }
     let s := { ready with port := some r }
     s.port = some r ∧ s.op = .none ∧ s.cfgValid = true ∧ r.dst = some [(0, 0xEE)]) ∧
    (let s := { sending (.phase .len .hs) .off m3 with port := some { code := 0b10, maxLen := 16 } }
     s.port = some { code := 0b10, maxLen := 16 } ∧ s.op ≠ .none) ∧
    (let s := { fresh with port := some { code := 0b10, maxLen := 16 } }
     s.port = some { code := 0b10, maxLen := 16 } ∧ s.op = .none ∧ s.cfgValid = false) := by decide

theorem witness_InitIsTakenOrTurnedAway :
    (let s := { fresh with port := some { code := 0b00, hz := 1 } }
     s.port = some { code := 0b00, hz := 1 } ∧ s.op = .none ∧ (1 : Nat) ≠ 0) ∧
    (let s := { sending (.phase .len .hs) .off m3 with port := some { code := 0b00, hz := 80000 } }
     s.port = some { code := 0b00, hz := 80000 } ∧ s.op ≠ .none) ∧
    (let s := { fresh with port := some { code := 0b00, hz := 0 } }
     s.port = some { code := 0b00, hz := 0 } ∧ s.op = .none) := by decide

theorem witness_QueryReturnsTheMode :
    (sending .mode .off m3).tmode = .off ∧ (sending .mode .on m3).tmode = .on ∧ (sending .mode .ending m3).tmode = .ending := by decide

/-- `LEN = MAXL - 1` and `LEN = MAXL`. -/
theorem witness_TerminatorIsWritten :
    (let s := { receiving .post 15 16 with dst := dstOf 0 [0xEE] }
     Memory.wf s.dst = true ∧ s.port = none ∧ s.op = .recv ∧ s.seq = .post ∧ s.len.toNat < s.maxl.toNat) ∧
    (let s := { receiving .post 16 16 with dst := dstOf 0 [0xEE] }
     Memory.wf s.dst = true ∧ s.port = none ∧ s.op = .recv ∧ s.seq = .post ∧ s.maxl.toNat ≤ s.len.toNat) := by decide

/-- States of the invariant at post-processing: `LEN = MAXL`, `LEN > MAXL` and `LEN = 0`. -/
theorem post_inv (p : Len15 × BitVec 32) (h : p ∈ [((16 : Len15), (16 : BitVec 32)), (17, 16), (0, 1)]) :
    Inv { receiving .post p.1 p.2 with trace := [.hs true] } := by
  simp only [List.mem_cons, List.not_mem_nil, or_false] at h
  rcases h with rfl | rfl | rfl <;>
    exact ⟨by decide, by decide, by decide, by decide, by decide, by decide, by decide, by decide, by decide, by decide, by decide⟩

/-- With `post_inv`: the premise `Inv` can be met where `MAXL <= LEN`, at either side of the boundary. -/
theorem witness_TerminatorIsWritten_inv :
    (∃ s, Inv s ∧ s.port = none ∧ s.op = .recv ∧ s.seq = .post ∧ s.maxl.toNat = s.len.toNat) ∧
    (∃ s, Inv s ∧ s.port = none ∧ s.op = .recv ∧ s.seq = .post ∧ s.maxl.toNat < s.len.toNat) :=
  ⟨⟨_, post_inv (16, 16) (by decide), by decide⟩, ⟨_, post_inv (17, 16) (by decide), by decide⟩⟩

/-- With `post_inv`: a cycle of length zero. -/
theorem witness_LengthZeroTerminatesAtZero_inv :
    ∃ s, Inv s ∧ s.port = none ∧ s.op = .recv ∧ s.seq = .post ∧ s.len = 0 ∧ 1 ≤ s.maxl.toNat :=
  ⟨_, post_inv (0, 1) (by decide), by decide⟩

/-- `LEN = 4`, the least that is normalised, with an octet that is and one that is not. -/
theorem witness_NormalisationAndFrameOfPost :
    let s := { receiving .post 4 5 with dst := dstOf 0 [0x0D, 0x0A, 0x0D, 0x0A] }
    Memory.wf s.dst = true ∧ s.port = none ∧ s.op = .recv ∧ s.seq = .post ∧ s.dst.read 1 = 0x0A ∧ s.dst.read 2 = 0x0D := by decide

theorem witness_LengthZeroTerminatesAtZero :
    let s := { receiving .post 0 1 with dst := dstOf 0 [0xEE, 0xEE] }
    Memory.wf s.dst = true ∧ s.port = none ∧ s.op = .recv ∧ s.seq = .post ∧ s.len = 0 ∧ 1 ≤ s.maxl.toNat := by decide

theorem witness_LengthTenIsNormalisedBelowEight :
    let s := { receiving .post 10 11 with dst := dstOf 0 [0x0D, 0x0A, 0x0D, 0x0A, 0x0D, 0x0A, 0x0D, 0x0A, 0x0D, 0x0A] }
    Memory.wf s.dst = true ∧ s.port = none ∧ s.op = .recv ∧ s.seq = .post ∧ s.len = 10 ∧ 10 < s.maxl.toNat := by decide

theorem witness_LoopSampleDecides :
    ∀ b ∈ [true, false],
      let s := answers (receiving .loop 6 16) [] [] [b]
      s.port = none ∧ s.op = .recv ∧ s.seq = .loop ∧ s.env.hsSample = b := by decide

/-- I4, I6 and the least divider that does not fit 12 bits, 4096; and the greatest that does. -/
theorem witness_DividerIsComputed :
    (∀ p ∈ [(8000000, 16000000, 0), (1, 8192, 4095)],
      let s := initing .clk p.1 p.2.1
      s.port = none ∧ s.op = .init ∧ s.seq = .clk ∧ s.hz ≠ 0 ∧ s.env.clockHz = p.2.1 ∧
        p.2.1 / (2 * s.hz) = p.2.2 + 1 ∧ p.2.2 < 2 ^ s.par.divW) ∧
    (let s := initing .clk 8000001 16000000
     s.port = none ∧ s.op = .init ∧ s.seq = .clk ∧ s.hz ≠ 0 ∧ s.env.clockHz = 16000000 ∧ 16000000 / (2 * s.hz) = 0) ∧
    (let s := initing .clk 1 8194
     s.port = none ∧ s.op = .init ∧ s.seq = .clk ∧ s.hz ≠ 0 ∧ s.env.clockHz = 8194 ∧
       8194 / (2 * s.hz) = 4096 + 1 ∧ 2 ^ s.par.divW ≤ 4096) := by decide

theorem witness_FrameFormatIsConstant :
    ∀ k ∈ [(0 : Fin 8), 1, 2],
      let s := initing (.cfgw k) 80000 320000000
      s.port = none ∧ s.op = .init ∧ s.seq = .cfgw k := by decide

/-- I1. -/
theorem witness_InitRunsToCompletion :
    let s := initing .clk 80000 320000000
    s.par.supportsReceive = true ∧ s.port = none ∧ s.host = [] ∧ s.op = .init ∧ s.seq = .clk ∧
      s.env.clockHz / (2 * s.hz) = 1999 + 1 ∧ 1999 < 2 ^ s.par.divW := by decide

/-- A header in the Length phase, a payload octet in the other operation and one after the last; filler in the Header phase and one octet too many;
the rows that are read; the operations. -/
theorem witness_RowsOutOfPlaceStop :
    (let s := sending (.phase .len .tx) .off m3
     s.op = .send ∧ s.seq ≠ .phase .hdr .tx ∧ s.seq ≠ .phase .hdr .rx) ∧
    (receiving (.phase .pay .tx) 6 16).op ≠ .send ∧
    (let s := { sending (.phase .pay .tx) .off m3 with cnt := 4 }
     s.seq = .phase .pay .tx ∧ s.octetCount .pay ≤ s.cnt.toNat) ∧
    (∀ ph ∈ [Phase.len, .pay], ∀ st ∈ [Sub.tx, .rx], (recvHdr .tx).seq ≠ .phase ph st) ∧
    (let s := { receiving (.phase .pay .tx) 6 16 with cnt := 6 }
     s.seq = .phase .pay .tx ∧ s.octetCount .pay ≤ s.cnt.toNat) ∧
    (let s := { receiving (.phase .len .rx) 6 16 with cnt := 4 }
     4 ≤ s.cnt.toNat ∧ s.seq ≠ .phase .pay .rx) ∧
    (let s := answers { receiving (.phase .pay .rx) 6 5 with cnt := 5 } [] [some 0x42] []
     s.op = .recv ∧ s.seq = .phase .pay .rx ∧ s.maxl.toNat ≤ s.cnt.toNat ∧ s.env.rxAnswer = some 0x42) ∧
    (ready.port = none ∧ ready.op ≠ .init ∧ ready.op ≠ .send ∧ ready.op ≠ .recv) ∧
    (let s := sending (.phase .pay .tx) .off m3
     s.port = none ∧ s.op = .send ∧ s.seq = .phase .pay .tx ∧ s.cnt.toNat < s.octetCount .pay) ∧
    (let s := receiving (.phase .hdr .rx) 6 16
     s.port = none ∧ s.op = .recv ∧ s.seq = .phase .hdr .rx) := by decide

/-- Each of the four rows answers a next state somewhere. -/
theorem witness_SendingRowsFrame :
    (∃ t, exec .hdrSend (answers (sendAt .hdr .tx .hdrSend) [true] [] []) = .next t) ∧
    (∃ t, exec .hdrRecv (answers (recvHdr .tx) [true] [] []) = .next t) ∧
    (∃ t, exec (.lenOut 4 0) (answers (sendAt .len .tx (.lenOut 4 0)) [true] [] []) = .next t) ∧
    (∃ t, exec (.payOut 0x41) (answers (sendAt .pay .tx (.lenOut 4 0)) [true] [] []) = .next t) :=
  ⟨⟨_, rfl⟩, ⟨_, rfl⟩, ⟨_, rfl⟩, ⟨_, rfl⟩⟩

theorem witness_ReadingRowsFrame :
    Memory.wf (receiving (.phase .len .rx) 6 16).dst = true ∧
    (∃ t, exec (.lenIn 0 6 0 0 0x42) { receiving (.phase .len .rx) 6 16 with cnt := 3 } = .next t) ∧
    (∃ t, exec (.payIn 0x41) { receiving (.phase .pay .rx) 6 16 with cnt := 5 } = .next t) ∧
    (∃ t, exec .fill (answers { receiving (.phase .pay .rx) 6 16 with cnt := 5 } [] [some 0x41] []) = .next t) ∧
    (∃ t, exec .fill (answers (receiving (.phase .len .tx) 6 16) [true] [] []) = .next t) :=
  ⟨by decide, ⟨_, rfl⟩, ⟨_, rfl⟩, ⟨_, rfl⟩, ⟨_, rfl⟩⟩

theorem witness_SendFrame :
    (∃ t, exec .send (sending (.phase .pay .rel) .on m3) = .next t) ∧ (sending (.phase .pay .rel) .on m3).seq ≠ .mode ∧
      (sending (.phase .pay .rel) .on m3).port = none :=
  ⟨⟨_, rfl⟩, by decide, by decide⟩

theorem witness_RecvFrame :
    Memory.wf (receiving .loop 6 16).dst = true ∧ (∃ t, exec .recv (answers (receiving .loop 6 16) [] [] [true]) = .next t) ∧
      (receiving .loop 6 16).port = none ∧ (16 : BitVec 32).toNat ≤ 16 ∧ (receiving .loop 6 16).seq ≠ .post :=
  ⟨by decide, ⟨_, rfl⟩, by decide, by decide, by decide⟩

theorem witness_InitFrame : (∃ t, exec .init (initing .clk 80000 320000000) = .next t) ∧ (initing .clk 80000 320000000).seq = .clk :=
  ⟨⟨_, rfl⟩, by decide⟩

/-- `rst` while idle, while a `SEND` polls, and with a request on the port. -/
theorem witness_RstResetsTheBlock :
    (let s := { ready with host := [⟨.idle, .rst⟩] }
     s.par.supportsReceive = true ∧ s.port = none ∧ s.hostDue = some (.rst, []) ∧ s.op = .none) ∧
    (let s := { sending (.phase .len .hs) .on m1 with host := [⟨.after 0, .rst⟩] }
     s.par.supportsReceive = true ∧ s.port = none ∧ s.hostDue = some (.rst, []) ∧ s.op ≠ .none) ∧
    (let s := { ready with host := [⟨.after 0, .rst⟩], port := some { code := 0b11 } }
     s.par.supportsReceive = true ∧ s.port = some { code := 0b11 } ∧ s.hostDue = some (.rst, [])) := by decide

theorem witness_ConsolePolicy :
    ∀ t ∈ [TMode.on, .ending],
      let s := { ready with ret := some (.mode t), host := [⟨.idle, .recvUnlessOn { code := 0b10, maxLen := 16 }⟩] }
      s.par.supportsReceive = true ∧ s.port = none ∧ s.hostDue = some (.recvUnlessOn { code := 0b10, maxLen := 16 }, []) ∧
        s.ret = some (.mode t) := by decide

theorem witness_StepRunsTheFetchedRow :
    ({ par0 with supportsReceive := false } : Params).supportsReceive = false ∧
    (let s := { ready with port := some { code := 0b11 } }
     s.par.supportsReceive = true ∧ s.port = some { code := 0b11 }) ∧
    (let s := { ready with host := [⟨.idle, .rst⟩] }
     s.port = none ∧ s.hostDue = some (.rst, [])) ∧
    (let s := { sendAt .hdr .tx .hdrSend with host := [⟨.after 1, .rst⟩] }
     s.port = none ∧ s.hostDue = none ∧ engineFetch s = .run .hdrSend) ∧
    (ready.port = none ∧ ready.hostDue = none ∧ ready.op = .none ∧ ready.seq = .idle) := by decide

/-- A state of the invariant in which each clause applies. -/
theorem send_inv (ph : Phase) (c : BitVec 15) (h : (ph, c) ∈ [(Phase.hdr, (3 : BitVec 15)), (.hdr, 4), (.len, 3), (.len, 4), (.pay, 3), (.pay, 4)]) :
    Inv { sendAt ph .tx (if ph = .hdr then .hdrSend else .lenOut 4 0) with cnt := c, trace := [.rx 0xFF] } := by
  fin_cases h <;>
    exact ⟨by decide, by decide, by decide, by decide, by decide, by decide, by decide, by decide, by decide, by decide, by decide⟩

/-- The same for `RECV`, whose first octets stand in the buffer. -/
theorem recv_inv (ph : Phase) (c : BitVec 15) (h : (ph, c) ∈ [(Phase.hdr, (3 : BitVec 15)), (.hdr, 4), (.len, 3), (.len, 4), (.pay, 5), (.pay, 6)]) :
    Inv { receiving (.phase ph .tx) 6 16 with fb := FrameBuf.ofInstr .hdrRecv, cnt := c, trace := [.rx 0xFF] } := by
  fin_cases h <;>
    exact ⟨by decide, by decide, by decide, by decide, by decide, by decide, by decide, by decide, by decide, by decide, by decide⟩

/-- A `RECV` that reads, or waits for, the last octet of its Length frame or of its payload. -/
theorem reading_inv (ph : Phase) (c : BitVec 15) (v : Option Octet)
    (h : (ph, c, v) ∈ [(Phase.len, (3 : BitVec 15), some (0x42 : Octet)), (.pay, 5, some 0x42), (.len, 3, none), (.pay, 5, none)]) :
    Inv (answers { receiving (.phase ph .rx) 6 16 with cnt := c, csAct := true, trace := [.tx 0x00] } [] [v] []) := by
  fin_cases h <;>
    exact ⟨by decide, by decide, by decide, by decide, by decide, by decide, by decide, by decide, by decide, by decide, by decide⟩

/-- A `SEND` or a `RECV` that reads an octet of its Header, and a `SEND` that reads one of its Length frame. -/
theorem dropping_inv :
    Inv { sendAt .hdr .rx .hdrSend with csAct := true, trace := [.tx 0x02] } ∧ Inv { recvHdr .rx with csAct := true, trace := [.tx 0x01] } ∧
      Inv { sendAt .len .rx (.lenOut 4 0) with csAct := true, trace := [.tx 0x04] } := by
  refine ⟨?_, ?_, ?_⟩ <;>
    exact ⟨by decide, by decide, by decide, by decide, by decide, by decide, by decide, by decide, by decide, by decide, by decide⟩

/-- A step of the boundary of a Payload phase, in either operation, with the event that precedes it. -/
def boundaryAt (st : Sub) (e : Event) (send : Bool) : State :=
  if send then { sending (.phase .pay st) .off m3 with cnt := 4, trace := [e] } else { receiving (.phase .pay st) 6 16 with cnt := 6, trace := [e] }

theorem boundary_inv (st : Sub) (e : Event) (send : Bool)
    (h : (st, e, send) ∈ [(Sub.rel, Event.rx 0xFF, true), (.dly, .csrel, true), (.hs, .dly 7, true),
      (.rel, .rx 0xFF, false), (.dly, .csrel, false), (.hs, .dly 7, false)]) : Inv (boundaryAt st e send) := by
  fin_cases h <;>
    exact ⟨by decide, by decide, by decide, by decide, by decide, by decide, by decide, by decide, by decide, by decide, by decide⟩

theorem mode_inv : Inv (sending .mode .on m2) :=
  ⟨by decide, by decide, by decide, by decide, by decide, by decide, by decide, by decide, by decide, by decide, by decide⟩

theorem loop_inv : Inv { receiving .loop 6 16 with trace := [.hs true] } :=
  ⟨by decide, by decide, by decide, by decide, by decide, by decide, by decide, by decide, by decide, by decide, by decide⟩

theorem ready_inv : Inv ready :=
  ⟨by decide, by decide, by decide, by decide, by decide, by decide, by decide, by decide, by decide, by decide, by decide⟩

theorem initing_inv : Inv (initing .clk 80000 320000000) :=
  ⟨by decide, by decide, by decide, by decide, by decide, by decide, by decide, by decide, by decide, by decide, by decide⟩

/-- One state of the invariant for each clause, octets being moved. -/
theorem witness_FetchFollowsTheSequencer :
    (∃ s, Inv s ∧ s.op = .none) ∧ (∃ s, Inv s ∧ s.op = .init) ∧
    (∃ s, Inv s ∧ s.op = .send ∧ s.seq = .phase .hdr .tx ∧ s.cnt.toNat < 4) ∧
    (∃ s, Inv s ∧ s.op = .send ∧ s.seq = .phase .hdr .rx) ∧
    (∃ s, Inv s ∧ s.op = .send ∧ s.seq = .phase .len .tx ∧ s.cnt.toNat < 4) ∧
    (∃ s, Inv s ∧ s.op = .send ∧ s.seq = .phase .len .rx) ∧
    (∃ s, Inv s ∧ s.op = .send ∧ s.seq = .phase .pay .tx ∧ s.cnt.toNat < s.len.toNat) ∧
    (∃ s, Inv s ∧ s.op = .send ∧ s.seq = .phase .pay .rx) ∧
    (∃ s, Inv s ∧ s.op = .recv ∧ s.seq = .phase .hdr .tx ∧ s.cnt.toNat < 4) ∧
    (∃ s, Inv s ∧ s.op = .recv ∧ s.seq = .phase .hdr .rx) ∧
    (∃ s, Inv s ∧ s.op = .recv ∧ s.seq = .phase .len .tx ∧ s.cnt.toNat < 4) ∧
    (∃ s, Inv s ∧ s.op = .recv ∧ s.seq = .phase .len .rx ∧ s.env.rxAnswer = none) ∧
    (∃ s, Inv s ∧ s.op = .recv ∧ s.seq = .phase .pay .tx ∧ s.cnt.toNat < s.nrd.toNat) ∧
    (∃ s, Inv s ∧ s.op = .recv ∧ s.seq = .phase .pay .rx ∧ s.env.rxAnswer = none) ∧
    (∃ s, Inv s ∧ s.op = .recv ∧ s.seq = .phase .len .rx ∧ s.env.rxAnswer = some 0x42) ∧
    (∃ s, Inv s ∧ s.op = .recv ∧ s.seq = .phase .pay .rx ∧ s.env.rxAnswer = some 0x42) :=
  ⟨⟨_, ready_inv, by decide⟩, ⟨_, initing_inv, by decide⟩,
    ⟨_, send_inv .hdr 3 (by decide), by decide⟩, ⟨_, dropping_inv.1, by decide⟩,
    ⟨_, send_inv .len 3 (by decide), by decide⟩, ⟨_, dropping_inv.2.2, by decide⟩,
    ⟨_, send_inv .pay 3 (by decide), by decide⟩, ⟨_, waitingSend_inv, by decide⟩,
    ⟨_, recv_inv .hdr 3 (by decide), by decide⟩, ⟨_, dropping_inv.2.1, by decide⟩,
    ⟨_, recv_inv .len 3 (by decide), by decide⟩, ⟨_, reading_inv .len 3 none (by decide), by decide⟩,
    ⟨_, recv_inv .pay 5 (by decide), by decide⟩, ⟨_, reading_inv .pay 5 none (by decide), by decide⟩,
    ⟨_, reading_inv .len 3 (some 0x42) (by decide), by decide⟩, ⟨_, reading_inv .pay 5 (some 0x42) (by decide), by decide⟩⟩

/-- The same, the operation itself being next. -/
theorem witness_FetchFollowsTheSequencer_operation :
    (∃ s, Inv s ∧ s.op = .send ∧ s.seq = .mode) ∧
    (∃ s, Inv s ∧ s.op = .recv ∧ s.seq = .post) ∧ (∃ s, Inv s ∧ s.op = .recv ∧ s.seq = .loop) ∧
    (∃ s, Inv s ∧ s.seq = .phase .pay .tx ∧ s.cnt.toNat = s.octetCount .pay ∧ s.op = .send) ∧
    (∃ s, Inv s ∧ s.seq = .phase .hdr .tx ∧ s.cnt.toNat = s.octetCount .hdr ∧ s.op = .recv) ∧
    (∃ s, Inv s ∧ s.seq = .phase .pay .rel ∧ s.op = .send) ∧ (∃ s, Inv s ∧ s.seq = .phase .pay .rel ∧ s.op = .recv) ∧
    (∃ s, Inv s ∧ s.seq = .phase .pay .dly ∧ s.op = .send) ∧ (∃ s, Inv s ∧ s.seq = .phase .pay .dly ∧ s.op = .recv) ∧
    (∃ s, Inv s ∧ s.seq = .phase .pay .hs ∧ s.op = .send) ∧ (∃ s, Inv s ∧ s.seq = .phase .pay .hs ∧ s.op = .recv) :=
  ⟨⟨_, mode_inv, by decide⟩, ⟨_, post_inv (0, 1) (by decide), by decide⟩, ⟨_, loop_inv, by decide⟩,
    ⟨_, send_inv .pay 4 (by decide), by decide⟩, ⟨_, recv_inv .hdr 4 (by decide), by decide⟩,
    ⟨_, boundary_inv .rel (.rx 0xFF) true (by decide), by decide⟩, ⟨_, boundary_inv .rel (.rx 0xFF) false (by decide), by decide⟩,
    ⟨_, boundary_inv .dly .csrel true (by decide), by decide⟩, ⟨_, boundary_inv .dly .csrel false (by decide), by decide⟩,
    ⟨_, boundary_inv .hs (.dly 7) true (by decide), by decide⟩, ⟨_, boundary_inv .hs (.dly 7) false (by decide), by decide⟩⟩

theorem witness_StepKeepsInv : Inv waitingSend ∧ ∃ t, step waitingSend = .next t := ⟨waitingSend_inv, _, rfl⟩

theorem witness_InvariantNeverStops : Inv waitingSend ∧ Inv ready := ⟨waitingSend_inv, ready_inv⟩

theorem witness_ModeMovesOnlyAtTheModeStep : ∃ t, step (sending .mode .on m2) = .next t ∧ t.tmode ≠ (sending .mode .on m2).tmode :=
  ⟨_, rfl, by decide⟩

theorem witness_ConfigurationMovesOnlyInInit :
    ∃ t, step (initing (.cfgw 7) 80000 320000000) = .next t ∧ t.cfgValid ≠ (initing (.cfgw 7) 80000 320000000).cfgValid :=
  ⟨_, rfl, by decide⟩

/-- A `RECV` about to store at `MAXL - 1`. -/
theorem witness_DestinationKeepsItsBound :
    let s := answers { receiving (.phase .pay .rx) 6 16 with cnt := 5, csAct := true, trace := [.tx 0x00] } [] [some 0x42] []
    Inv s ∧ s.port = none ∧ (∀ rest, s.hostDue ≠ some (.rst, rest)) ∧ (∃ t, step s = .next t) ∧ (s.op = .recv → s.maxl.toNat ≤ 16) :=
  ⟨reading_inv .pay 5 (some 0x42) (by decide), by decide, fun _ => (by simp [answers, receiving, ready, fresh, State.reset, State.hostDue]), ⟨_, rfl⟩, by decide⟩

theorem witness_AtMostOneEventAStep : ∃ t, step (sending (.phase .hdr .rel) .off m3) = .next t := ⟨_, rfl⟩

/-- A `RECV` in its Header phase with an old `LEN`, and the block idle with all five registers different. -/
theorem witness_WorkingRegistersCarryNothing_step :
    (∃ s u t, agreeOnWritten s u ∧ s.len ≠ u.len ∧ step s = .next t) ∧
    (∃ s u t, agreeOnWritten s u ∧ s.len ≠ u.len ∧ s.nrd ≠ u.nrd ∧ s.maxl ≠ u.maxl ∧ s.cnt ≠ u.cnt ∧ s.fb ≠ u.fb ∧ step s = .next t) :=
  ⟨⟨recvHdr .rel, { recvHdr .rel with len := 9 }, _, ⟨rfl, by decide, by decide, by decide⟩, by decide, rfl⟩,
    ⟨ready, { ready with len := 1, nrd := 1, maxl := 1, cnt := 1, fb := ⟨1, 1, 1, 1⟩ }, _, ⟨rfl, by decide, by decide, by decide⟩,
      by decide, by decide, by decide, by decide, by decide, rfl⟩⟩

theorem witness_WorkingRegistersCarryNothing :
    (let r : Request := { code := 0b01, msg := m3 }
     let s := { ready with port := some r }
     s.par.supportsReceive = true ∧ s.op = .none ∧ s.cfgValid = true ∧ s.host = [] ∧ s.port = some r ∧ r.wf = true ∧ r.code = 0b01) ∧
    (let r : Request := { code := 0b10, maxLen := 16 }
     let s := { ready with port := some r }
     s.par.supportsReceive = true ∧ s.op = .none ∧ s.cfgValid = true ∧ s.host = [] ∧ s.port = some r ∧ r.wf = true ∧ r.code = 0b10) := by decide

/-- T2: a `SEND` of one octet, at its mode step, against a slave that is ready at once. -/
def oneOctet : State :=
  answers (sending .mode .off [0x41]) (List.replicate 9 true) (List.replicate 9 (some 0xFF)) [true, true, true]

theorem oneOctet_inv : Inv oneOctet :=
  ⟨by decide, by decide, by decide, by decide, by decide, by decide, by decide, by decide, by decide, by decide, by decide⟩

theorem witness_SendRunsToCompletion :
    Inv oneOctet ∧ oneOctet.port = none ∧ oneOctet.host = [] ∧ oneOctet.op = .send ∧ oneOctet.seq = .mode ∧
    (List.replicate 9 (0xFF : Octet)).length = 8 + (sendLen oneOctet.par oneOctet.msg).toNat ∧
    oneOctet.env.tx = List.replicate (8 + (sendLen oneOctet.par oneOctet.msg).toNat) true ++ [] ∧
    oneOctet.env.rx = (List.replicate 9 (0xFF : Octet)).map some ++ [] ∧ oneOctet.env.hs = [true, true, true] ++ [] :=
  ⟨oneOctet_inv, by decide, by decide, by decide, by decide, by decide, by decide, by decide, by decide⟩

/-- A `RECV` of one cycle of length 1 into two octets. -/
def oneCycle : State :=
  answers { recvHdr .tx with maxl := 2, dst := dstOf 0 [0xEE, 0xEE] } (List.replicate 9 true)
    ([0xFF, 0xFF, 0xFF, 0xFF, 0x01, 0x00, 0x00, 0x42, 0x0D].map some) [true, true, true, false]

theorem oneCycle_inv : Inv oneCycle :=
  ⟨by decide, by decide, by decide, by decide, by decide, by decide, by decide, by decide, by decide, by decide, by decide⟩

theorem witness_RecvCycleRunsToCompletion :
    Inv oneCycle ∧ oneCycle.port = none ∧ oneCycle.host = [] ∧ oneCycle.op = .recv ∧ oneCycle.seq = .phase .hdr .tx ∧ oneCycle.cnt = 0 ∧
    ([0xFF, 0xFF, 0xFF, 0xFF] : List Octet).length = 4 ∧ ([0x0D] : List Octet).length = min (decLen 0x01 0x00).toNat oneCycle.maxl.toNat ∧
    oneCycle.env.tx = List.replicate (8 + ([0x0D] : List Octet).length) true ++ [] ∧
    oneCycle.env.rx = (([0xFF, 0xFF, 0xFF, 0xFF] : List Octet) ++ [0x01, 0x00, 0x00, 0x42] ++ [0x0D]).map some ++ [] ∧
    oneCycle.env.hs = [true, true, true, false] ++ [] :=
  ⟨oneCycle_inv, by decide, by decide, by decide, by decide, by decide, by decide, by decide, by decide, by decide, by decide⟩

/-- The same `SEND` with stalls of every kind. -/
def stalling : State :=
  answers (sending .mode .off [0x41]) (false :: List.replicate 9 true) (none :: List.replicate 9 (some 0xFF)) [false, true, true, false, true]

theorem stalling_inv : Inv stalling :=
  ⟨by decide, by decide, by decide, by decide, by decide, by decide, by decide, by decide, by decide, by decide, by decide⟩

theorem witness_FairSlaveLetsSendComplete :
    Inv stalling ∧ stalling.port = none ∧ stalling.host = [] ∧ stalling.op = .send ∧ stalling.seq = .mode ∧
    8 + (sendLen stalling.par stalling.msg).toNat ≤ stalling.env.tx.count true ∧
    8 + (sendLen stalling.par stalling.msg).toNat ≤ stalling.env.rx.countP Option.isSome ∧ 3 ≤ stalling.env.hs.count true :=
  ⟨stalling_inv, by decide, by decide, by decide, by decide, by decide, by decide, by decide⟩

end Sys2Proof.Tests
end

section
/-! The mode step of `SEND` (R112), and the frame that keeps `TMODE` after it: no step that takes no request and no act of the host writes
`TMODE` or comes back to the mode step (R22, R168). -/

namespace Sys2Proof.Machine

variable {s t u : State}

/-- The frame of a step away from the mode step: `TMODE`, the command port and the host's acts stay as they are, and the sequencer does not
come back to the mode step. -/
structure KeepsMode (s t : State) : Prop where
  tmode : t.tmode = s.tmode
  port : t.port = s.port
  host : t.host = s.host
  seq : s.seq ≠ .mode → t.seq ≠ .mode

theorem KeepsMode.trans (h : KeepsMode s t) (k : KeepsMode t u) : KeepsMode s u where
  tmode := k.tmode.trans h.tmode
  port := k.port.trans h.port
  host := k.host.trans h.host
  seq := fun hs => k.seq (h.seq hs)

/-! ## The shared operations -/

theorem keepsMode_goto {q : Seq} (hq : q ≠ .mode) : KeepsMode s (s.goto q) := ⟨rfl, rfl, rfl, fun _ => hq⟩

theorem keepsMode_complete (r : Reply) : KeepsMode s (s.complete r) := ⟨rfl, rfl, rfl, nofun⟩

theorem keepsMode_startCycle : KeepsMode s s.startCycle := ⟨rfl, rfl, rfl, nofun⟩

theorem keepsMode_relStep (ph : Phase) : KeepsMode s (s.relStep ph) := ⟨rfl, rfl, rfl, nofun⟩

theorem keepsMode_dlyStep (ph : Phase) : KeepsMode s (s.dlyStep ph) := ⟨rfl, rfl, rfl, nofun⟩

theorem keepsMode_sample : KeepsMode s s.sample := ⟨rfl, rfl, rfl, id⟩

theorem keepsMode_rxStall : KeepsMode s s.rxStall := ⟨rfl, rfl, rfl, id⟩

theorem keepsMode_rxTake (ph : Phase) (v : Octet) : KeepsMode s (s.rxTake ph v) := ⟨rfl, rfl, rfl, nofun⟩

theorem keepsMode_captureLen (v : Octet) : KeepsMode s (s.captureLen v) := ⟨rfl, rfl, rfl, nofun⟩

theorem keepsMode_storeTake (d : Memory) (v : Octet) : KeepsMode s (State.rxTake { s with dst := d } .pay v) :=
  ⟨rfl, rfl, rfl, nofun⟩

theorem keepsMode_writeCfg (w : CfgWrite) : KeepsMode s (s.writeCfg w) := ⟨rfl, rfl, rfl, id⟩

theorem keepsMode_txStep (ph : Phase) (b : Octet) : KeepsMode s (s.txStep ph b) := by
  rcases s.txStep_cases ph b with ⟨-, e⟩ | ⟨-, e⟩ <;> rw [e]
  · exact ⟨rfl, rfl, rfl, nofun⟩
  · exact ⟨rfl, rfl, rfl, id⟩

theorem keepsMode_rxDiscard (ph : Phase) : KeepsMode s (s.rxDiscard ph) := by
  rcases s.rxDiscard_cases ph with ⟨v, -, e⟩ | ⟨-, e⟩ <;> rw [e]
  · exact keepsMode_rxTake ph v
  · exact keepsMode_rxStall

theorem keepsMode_hsStep {after : State → State} (h : ∀ u, KeepsMode u (after u)) : KeepsMode s (s.hsStep after) := by
  rcases s.hsStep_cases after with ⟨-, e⟩ | ⟨-, e⟩ <;> rw [e]
  · have clear : KeepsMode s { s.sample with cnt := 0 } := ⟨rfl, rfl, rfl, id⟩
    exact clear.trans (h _)
  · exact keepsMode_sample

theorem keepsMode_sendAfter (ph : Phase) (s : State) : KeepsMode s (sendAfter ph s) := by
  cases ph with
  | hdr => exact ⟨rfl, rfl, rfl, nofun⟩
  | len => exact keepsMode_goto nofun
  | pay => exact keepsMode_complete _

theorem keepsMode_recvAfter (ph : Phase) (s : State) : KeepsMode s (recvAfter ph s) := by
  cases ph with
  | hdr => exact keepsMode_goto nofun
  | len => exact ⟨rfl, rfl, rfl, nofun⟩
  | pay => exact keepsMode_goto nofun

theorem keepsMode_recvLoopStep : KeepsMode s (recvLoopStep s) := by
  unfold recvLoopStep
  split
  · exact keepsMode_sample.trans keepsMode_startCycle
  · exact keepsMode_sample.trans (keepsMode_complete _)

theorem keepsMode_clkStep : KeepsMode s (clkStep s) := by
  unfold clkStep
  dsimp only
  split
  · exact ⟨rfl, rfl, rfl, nofun⟩
  · exact ⟨rfl, rfl, rfl, nofun⟩

theorem keepsMode_cfgStep (k : Fin 8) : KeepsMode s (cfgStep s k) := by
  unfold cfgStep
  split
  · exact ⟨rfl, rfl, rfl, nofun⟩
  · exact (keepsMode_writeCfg _).trans (keepsMode_goto nofun)

/-! ## The operations and the wire rows -/

theorem keepsMode_of_sendStep (hq : s.seq ≠ .mode) (e : sendStep s = .next t) : KeepsMode s t := by
  rcases sendStep_cases e with ⟨h, -⟩ | ⟨ph, -, -, rfl⟩ | ⟨ph, -, rfl⟩ | ⟨ph, -, rfl⟩ | ⟨ph, -, rfl⟩
  · exact absurd h hq
  · exact keepsMode_goto nofun
  · exact keepsMode_relStep ph
  · exact keepsMode_dlyStep ph
  · exact keepsMode_hsStep (keepsMode_sendAfter ph)

theorem keepsMode_of_recvStep (e : recvStep s = .next t) : KeepsMode s t := by
  rcases recvStep_cases e with
    ⟨ph, -, -, rfl⟩ | ⟨ph, -, rfl⟩ | ⟨ph, -, rfl⟩ | ⟨ph, -, rfl⟩ | ⟨-, rfl⟩ | ⟨-, rfl⟩
  · exact keepsMode_goto nofun
  · exact keepsMode_relStep ph
  · exact keepsMode_dlyStep ph
  · exact keepsMode_hsStep (keepsMode_recvAfter ph)
  · exact ⟨rfl, rfl, rfl, nofun⟩
  · exact keepsMode_recvLoopStep

theorem keepsMode_of_initStep (e : initStep s = .next t) : KeepsMode s t := by
  rcases initStep_cases e with ⟨-, rfl⟩ | ⟨k, -, rfl⟩
  · exact keepsMode_clkStep
  · exact keepsMode_cfgStep k

theorem keepsMode_of_sendFrame {o : Op} {ph : Phase} {bs : List Octet} (e : sendFrame o ph bs s = .next t) :
    KeepsMode s t := by
  obtain ⟨-, ⟨b, -, -, rfl⟩ | ⟨-, rfl⟩⟩ := sendFrame_cases e
  · exact keepsMode_txStep ph b
  · exact keepsMode_rxDiscard ph

theorem keepsMode_of_fillRead {ph : Phase} (e : fillRead ph s = .next t) : KeepsMode s t := by
  rcases fillRead_cases e with ⟨-, rfl⟩ | ⟨v, -, -, rfl⟩ | ⟨v, -, -, -, rfl⟩
  · exact keepsMode_rxStall
  · exact keepsMode_captureLen v
  · exact keepsMode_storeTake _ v

theorem keepsMode_of_execPayOut {d : Octet} (e : execPayOut d s = .next t) : KeepsMode s t := by
  obtain ⟨-, ⟨-, -, rfl⟩ | ⟨-, rfl⟩⟩ := execPayOut_cases e
  · exact keepsMode_txStep .pay d
  · exact keepsMode_rxDiscard .pay

theorem keepsMode_of_execFill (e : execFill s = .next t) : KeepsMode s t := by
  obtain ⟨-, ph, -, ⟨-, -, rfl⟩ | ⟨-, hr⟩⟩ := execFill_cases e
  · exact keepsMode_txStep ph _
  · exact keepsMode_of_fillRead hr

/-- With no request on the command port, a row away from the mode step keeps `TMODE` (R168). -/
theorem keepsMode_of_exec {i : Instr} (hp : s.port = none) (hq : s.seq ≠ .mode) (e : exec i s = .next t) :
    KeepsMode s t := by
  have noRequest {r : Request} : s.port ≠ some r := by simp [hp]
  cases i with
  | hdrSend => exact keepsMode_of_sendFrame e
  | hdrRecv => exact keepsMode_of_sendFrame e
  | lenOut l h => exact keepsMode_of_sendFrame e
  | lenIn u l h v m =>
    obtain ⟨-, -, b, -, rfl⟩ := execLenIn_cases e
    exact keepsMode_captureLen b
  | payOut d => exact keepsMode_of_execPayOut e
  | fill => exact keepsMode_of_execFill e
  | payIn d =>
    obtain ⟨-, -, -, rfl⟩ := execPayIn_cases e
    exact keepsMode_storeTake _ d
  | init =>
    rcases execInit_cases e with ⟨r, hr, -⟩ | ⟨-, -, h⟩
    · exact absurd hr noRequest
    · exact keepsMode_of_initStep h
  | send =>
    rcases execSend_cases e with ⟨r, hr, -⟩ | ⟨-, -, h⟩
    · exact absurd hr noRequest
    · exact keepsMode_of_sendStep hq h
  | recv =>
    rcases execRecv_cases e with ⟨r, hr, -⟩ | ⟨-, -, h⟩
    · exact absurd hr noRequest
    · exact keepsMode_of_recvStep h
  | query =>
    cases e
    exact ⟨rfl, hp.symm, rfl, id⟩

/-! ## The machine with a host that asks for nothing -/

theorem State.hostDue_eq_none (h : s.host = []) : s.hostDue = none := by simp [State.hostDue, h]

/-- A host with no pending act has none after one more step. -/
theorem keepsMode_tick (h : s.host = []) : KeepsMode s s.tick :=
  ⟨rfl, rfl, by simp [tickHost, h], id⟩

/-- With no request on the port and no pending act of the host, a step away from the mode step keeps `TMODE`. -/
theorem keepsMode_of_step (hp : s.port = none) (hh : s.host = []) (hq : s.seq ≠ .mode) (e : step s = .next t) :
    KeepsMode s t := by
  obtain ⟨-, ⟨r, hr, -⟩ | ⟨a, rest, -, hd, -⟩ | ⟨-, -, -, rfl⟩ | ⟨i, -, -, -, hi⟩⟩ := step_cases e
  · rw [hp] at hr; cases hr
  · rw [State.hostDue_eq_none hh] at hd; cases hd
  · exact keepsMode_tick hh
  · exact (keepsMode_tick hh).trans (keepsMode_of_exec hp hq hi)

/-- A run of one step more is a step and the run from where it ends. -/
theorem run_succ_eq_next {k : Nat} (e : Host.Core.run Sys2Proof.core (k + 1) s = .next u) :
    ∃ t, step s = .next t ∧ Host.Core.run Sys2Proof.core k t = .next u := by
  simp only [Host.Core.run] at e
  split at e
  · next t h => exact ⟨t, h, e⟩
  · cases e
  · cases e

/-- A run of any length keeps `TMODE`, from a state with nothing asked and away from the mode step. -/
theorem keepsMode_of_run {k : Nat} (hp : s.port = none) (hh : s.host = []) (hq : s.seq ≠ .mode)
    (e : Host.Core.run Sys2Proof.core k s = .next u) : KeepsMode s u := by
  induction k generalizing s with
  | zero => cases e; exact ⟨rfl, rfl, rfl, id⟩
  | succ k ih =>
    obtain ⟨t, hst, hrun⟩ := run_succ_eq_next e
    have first : KeepsMode s t := keepsMode_of_step hp hh hq hst
    exact first.trans (ih (first.port.trans hp) (first.host.trans hh) (first.seq hq) hrun)

/-! ## The mode step -/

/-- At `MODE`, `SEND` takes its mode step (R112). -/
theorem exec_send_at_mode (ho : s.op = .send) (hq : s.seq = .mode) (hp : s.port = none) :
    exec .send s = .next (sendModeStep s) := by
  simp [exec, execSend, sendStep, ho, hq, hp]

/-- Every field the mode step writes, with its value (R112, R117, R167). -/
theorem sendModeStep_eq (s : State) : sendModeStep s =
    { s with tmode := (modeStep s.par s.tmode s.msg).1
             len := if (modeStep s.par s.tmode s.msg).2 then 3 else BitVec.ofNat 15 s.msg.length
             fb := ⟨0x02, 0x00, 0x00, 0x00⟩, cnt := 0, seq := .phase .hdr .tx } := rfl

/-- `QUERY` returns the mode of any state (R205). -/
theorem exec_query_ret (s : State) : ∃ t, exec .query s = .next t ∧ t.ret = some (.mode s.tmode) := ⟨_, rfl, rfl⟩

end Sys2Proof.Machine

open Sys2Proof Sys2Proof.Machine

/-- Settles O11: the mode step by its equation, the later states by the frame `KeepsMode` along the run. -/
theorem modeStepFixesModeAndLength : Obligations.ModeStepFixesModeAndLength := by
  unfold Obligations.ModeStepFixesModeAndLength
  intro s ho hq hp
  refine ⟨sendModeStep s, exec_send_at_mode ho hq hp, sendModeStep_eq s, ?_⟩
  intro hh k u hrun
  have kept : KeepsMode (sendModeStep s) u := keepsMode_of_run (s := sendModeStep s) hp hh nofun hrun
  have hmode : u.tmode = (modeStep s.par s.tmode s.msg).1 := kept.tmode
  refine ⟨hmode, congrArg TMode.code hmode, ?_⟩
  rw [← hmode]
  exact exec_query_ret u

end

section
/-! The start of the Payload phase of a `RECV` cycle: a Ready sample after the Length phase fixes `NRD` (R135), which is the octet count of the
phase (R186). -/

namespace Sys2Proof.Machine

variable {s : State}

/-- A sample that reads Ready clears `CNT` and goes on to what follows the phase (R176). -/
theorem State.hsStep_of_ready (h : s.env.hsSample = true) (after : State → State) :
    s.hsStep after = after { s.sample with cnt := 0 } := by
  rcases s.hsStep_cases after with ⟨-, e⟩ | ⟨hn, -⟩
  · exact e
  · rw [h] at hn; cases hn

/-- At the handshake of a phase, `RECV` takes one sample (R186). -/
theorem exec_recv_at_hs {ph : Phase} (hp : s.port = none) (ho : s.op = .recv) (hq : s.seq = .phase ph .hs) :
    exec .recv s = .next (s.hsStep (recvAfter ph)) := by
  simp [exec, execRecv, recvStep, hp, ho, hq]

/-- In `RECV` the octet count of the Payload phase is `NRD` (R186). -/
theorem State.octetCount_pay_of_recv (ho : s.op = .recv) : s.octetCount .pay = s.nrd.toNat := by
  simp [State.octetCount, ho]

/-- What follows the Length phase sets `NRD` to the lesser of `LEN` and `MAXL` (R135). -/
theorem recvAfter_len_nrd (s : State) : (recvAfter .len s).nrd.toNat = min s.len.toNat s.maxl.toNat :=
  payloadCount_toNat s.len s.maxl

end Sys2Proof.Machine

open Sys2Proof Sys2Proof.Machine

/-- Settles O26: the Ready sample runs `recvAfter .len`, whose `NRD` is the payload count. -/
theorem payloadCountIsTheLesser : Obligations.PayloadCountIsTheLesser := by
  unfold Obligations.PayloadCountIsTheLesser
  intro s hp ho hq hready
  have hstep : exec .recv s = .next (recvAfter .len { s.sample with cnt := 0 }) := by
    rw [exec_recv_at_hs hp ho hq, State.hsStep_of_ready hready]
  have hnrd : (recvAfter .len { s.sample with cnt := 0 }).nrd.toNat = min s.len.toNat s.maxl.toNat :=
    recvAfter_len_nrd _
  have hop : (recvAfter .len { s.sample with cnt := 0 }).op = .recv := ho
  exact ⟨_, hstep, rfl, hnrd, (State.octetCount_pay_of_recv hop).trans hnrd⟩

end

section
/-! The transitions of the mode machine at the mode step of `SEND` (R163 to R165): what the two literal comparisons, `ModeStep` and the
length of a message are on each of them. -/

namespace Sys2Proof.Machine

variable {p : Params} {m : List Octet}

/-! ## The literals -/

/-- The message is the streaming-enable command exactly when it is `ENABLE_CMD`, octet for octet (R161; D7). -/
theorem isEnable_iff : isEnable p m = true ↔ m = p.enableCmd := by simp [isEnable]

/-- An end sentinel begins with the three octets of `END_SENTINEL` (R161; D6). -/
theorem take_three_of_isEndSentinel (h : isEndSentinel p m = true) : m.take 3 = p.endSentinel := by
  simp only [isEndSentinel, Bool.and_eq_true, beq_iff_eq] at h
  obtain ⟨⟨-, htake⟩, -⟩ := h
  exact htake

/-- What legal parameters say of `ENABLE_CMD`: its bounds, and that it is no end sentinel (R8, R161). -/
theorem enableCmd_of_wf (h : p.wf = true) :
    1 ≤ p.enableCmd.length ∧ p.enableCmd.length ≤ Config.lenMax ∧ isEndSentinel p p.enableCmd = false := by
  simp only [Params.wf, paramsOk, enableOk, Bool.and_eq_true, decide_eq_true_eq, Bool.not_eq_true'] at h
  obtain ⟨⟨⟨⟨-, ⟨hmin, hmax⟩, hsentinel⟩, -⟩, -⟩, -⟩ := h
  exact ⟨hmin, hmax, hsentinel⟩

/-! ## `ModeStep` -/

/-- `Ending` behaves as `Off` (R163). -/
theorem modeStep_ending (p : Params) (m : List Octet) : modeStep p .ending m = modeStep p .off m := rfl

/-- `Off` becomes `On` on `ENABLE_CMD` (R164). -/
theorem modeStep_off_of_enable (h : m = p.enableCmd) : (modeStep p .off m).1 = .on := by
  simp [modeStep, leaveEnding, modeMove, isEnable_iff.mpr h]

/-- `Off` stays `Off` on any other message (R166). -/
theorem modeStep_off_of_not_enable (h : m ≠ p.enableCmd) : (modeStep p .off m).1 = .off := by
  simp [modeStep, leaveEnding, modeMove, isEnable_iff, h]

/-- `On` becomes `Ending` on the end sentinel (R165). -/
theorem modeStep_on_of_endSentinel (h : isEndSentinel p m = true) : (modeStep p .on m).1 = .ending := by
  simp [modeStep, leaveEnding, modeMove, h]

/-! ## The length a message is sent with -/

/-- A length that fits the 15-bit port is not cut (R51). -/
theorem msgLen_toNat (h : m.length ≤ Config.lenMax) : (msgLen m).toNat = m.length := by
  have hfits : m.length < 2 ^ 15 := Nat.lt_succ_of_le h
  exact (BitVec.toNat_ofNat ..).trans (Nat.mod_eq_of_lt hfits)

/-- The end sentinel forces the length to 3 (R167). -/
theorem sendLen_of_endSentinel (h : isEndSentinel p m = true) : sendLen p m = 3 := by
  simp [sendLen, h, Config.sentLen]

/-- Any other message is sent whole (R112). -/
theorem sendLen_of_not_endSentinel (h : isEndSentinel p m = false) : sendLen p m = msgLen m := by
  simp [sendLen, h]

/-- Under legal parameters `ENABLE_CMD` is sent whole (R164). -/
theorem sendLen_enableCmd_toNat (h : p.wf = true) : (sendLen p p.enableCmd).toNat = p.enableCmd.length := by
  obtain ⟨-, hmax, hsentinel⟩ := enableCmd_of_wf h
  rw [sendLen_of_not_endSentinel hsentinel, msgLen_toNat hmax]

/-- The Length frame of a forced length (R165). -/
theorem encLen_three : encLen 3 = [0x03, 0x00, 0x00, 0x41] := by decide

/-! ## The registers after the mode step -/

variable (s : State)

@[simp] theorem sendModeStep_tmode : (sendModeStep s).tmode = (modeStep s.par s.tmode s.msg).1 := rfl
@[simp] theorem sendModeStep_len : (sendModeStep s).len = sendLen s.par s.msg := rfl
@[simp] theorem sendModeStep_msg : (sendModeStep s).msg = s.msg := rfl

variable {s}

/-- From `Ending` the mode step gives what it would give from `Off` (R163). -/
theorem sendModeStep_tmode_of_ending (h : s.tmode = .ending) :
    (sendModeStep s).tmode = (modeStep s.par .off s.msg).1 := by
  rw [sendModeStep_tmode, h, modeStep_ending]

end Sys2Proof.Machine

open Sys2Proof Sys2Proof.Machine

/-- Settles O12: `Ending` is tested as `Off`, and the two outcomes of that test are `On` and `Off`. -/
theorem endingIsLeftFirst : Obligations.EndingIsLeftFirst := by
  unfold Obligations.EndingIsLeftFirst
  intro s ho hq hp hending
  have onEnable (h : s.msg = s.par.enableCmd) : (sendModeStep s).tmode = .on :=
    (sendModeStep_tmode_of_ending hending).trans (modeStep_off_of_enable h)
  have onOther (h : s.msg ≠ s.par.enableCmd) : (sendModeStep s).tmode = .off :=
    (sendModeStep_tmode_of_ending hending).trans (modeStep_off_of_not_enable h)
  refine ⟨sendModeStep s, exec_send_at_mode ho hq hp, onEnable, onOther, ?_⟩
  by_cases h : s.msg = s.par.enableCmd
  · rw [onEnable h]
    nofun
  · rw [onOther h]
    nofun

/-- Settles O13: legal parameters make `ENABLE_CMD` no end sentinel and short enough for `LEN`, so its length is not forced. -/
theorem enableTurnsOn : Obligations.EnableTurnsOn := by
  unfold Obligations.EnableTurnsOn
  intro s hwf ho hq hp hoff hmsg
  refine ⟨sendModeStep s, exec_send_at_mode ho hq hp, ?_, ?_, sendModeStep_msg s⟩
  · rw [sendModeStep_tmode, hoff]
    exact modeStep_off_of_enable hmsg
  · rw [sendModeStep_len, hmsg]
    exact sendLen_enableCmd_toNat hwf

/-- Settles O14: the sentinel forces `LEN` to 3, and its first three octets are `END_SENTINEL`. -/
theorem sentinelEndsAndForcesThree : Obligations.SentinelEndsAndForcesThree := by
  unfold Obligations.SentinelEndsAndForcesThree
  intro s ho hq hp hon hsentinel
  have hlen : (sendModeStep s).len = 3 := sendLen_of_endSentinel hsentinel
  refine ⟨sendModeStep s, exec_send_at_mode ho hq hp, ?_, hlen, ?_, ?_⟩
  · rw [sendModeStep_tmode, hon]
    exact modeStep_on_of_endSentinel hsentinel
  · rw [hlen]
    exact encLen_three
  · rw [hlen, sendModeStep_msg]
    exact take_three_of_isEndSentinel hsentinel

end

section
/-! The poll of the handshake line in a boundary: a sample that reads not Ready changes nothing but the trace and the environment, so the next
step is a sample again (R176, R178). -/

namespace Sys2Proof.Machine

variable {s t : State} {ph : Phase}

/-! ## One sample -/

/-- A sample that reads not Ready stays at the handshake (R176). -/
theorem State.hsStep_of_not_ready (h : s.env.hsSample = false) (after : State → State) : s.hsStep after = s.sample := by
  rcases s.hsStep_cases after with ⟨hr, -⟩ | ⟨-, e⟩
  · rw [h] at hr; cases hr
  · exact e

/-- At the handshake of a phase, `SEND` takes one sample (R186). -/
theorem exec_send_at_hs (hp : s.port = none) (ho : s.op = .send) (hq : s.seq = .phase ph .hs) :
    exec .send s = .next (s.hsStep (sendAfter ph)) := by
  simp [exec, execSend, sendStep, hp, ho, hq]

/-- A not-Ready answer at the head of the list is used up by the sample and recorded as its event (R54). -/
theorem State.sample_of_hs_cons_false {hs : List Bool} (h : s.env.hs = false :: hs) :
    s.sample = { s with env := { s.env with hs := hs }, trace := .hs false :: s.trace } := by
  simp [State.sample, State.emit, Env.hsSample, Env.popHs, h]

/-! ## One step of the machine -/

/-- With no pending act of the host, no act counts the step. -/
theorem State.tick_eq_self (h : s.host = []) : s.tick = s := by
  have hkeep : tickHost s.host = s.host := by simp [tickHost, h]
  simp [State.tick, hkeep]

/-- With no request on the port and no pending act of the host, a step is one of the row the engine fetches (R12, R25). -/
theorem step_eq_exec {i : Instr} (hrx : s.par.supportsReceive = true) (hp : s.port = none) (hh : s.host = [])
    (hf : engineFetch s = .run i) : step s = exec i s := by
  simp [step, hrx, hp, State.hostDue_eq_none hh, engineStep, hf, State.tick_eq_self hh]

/-- The block is at the handshake of a phase of `SEND` or `RECV`, with nothing asked of it. -/
structure AtPoll (ph : Phase) (s : State) : Prop where
  receives : s.par.supportsReceive = true
  port : s.port = none
  host : s.host = []
  op : s.op = .send ∨ s.op = .recv
  seq : s.seq = .phase ph .hs

/-- A sample by itself does not leave the poll. -/
theorem AtPoll.sample (h : AtPoll ph s) : AtPoll ph s.sample := ⟨h.receives, h.port, h.host, h.op, h.seq⟩

/-- At the poll, a sample that reads not Ready is the whole step (R178). -/
theorem AtPoll.step_of_not_ready (h : AtPoll ph s) (hn : s.env.hsSample = false) : step s = .next s.sample := by
  obtain ⟨hrx, hp, hh, ho, hq⟩ := h
  rcases ho with ho | ho
  · have hfetch : engineFetch s = .run .send := by simp [engineFetch, ho, hq]
    rw [step_eq_exec hrx hp hh hfetch, exec_send_at_hs hp ho hq, State.hsStep_of_not_ready hn]
  · have hfetch : engineFetch s = .run .recv := by simp [engineFetch, ho, hq]
    rw [step_eq_exec hrx hp hh hfetch, exec_recv_at_hs hp ho hq, State.hsStep_of_not_ready hn]

/-! ## Any number of samples -/

/-- A run whose first step is known goes on from where that step ends. -/
theorem run_succ_of_step {k : Nat} (e : step s = .next t) :
    Host.Core.run Sys2Proof.core (k + 1) s = Host.Core.run Sys2Proof.core k t := by
  have hstep : Sys2Proof.core.step s = .next t := e
  simp [Host.Core.run, hstep]

/-- `k` answers not Ready are used up by `k` samples at the poll, which record `k` events (R178). -/
theorem AtPoll.run_replicate {k : Nat} {hs : List Bool} (h : AtPoll ph s) (hhs : s.env.hs = List.replicate k false ++ hs) :
    Host.Core.run Sys2Proof.core k s =
      .next { s with env := { s.env with hs := hs }, trace := List.replicate k (.hs false) ++ s.trace } := by
  induction k generalizing s with
  | zero =>
    have hnone : s.env.hs = hs := hhs
    simp [Host.Core.run, ← hnone]
  | succ k ih =>
    have hcons : s.env.hs = false :: (List.replicate k false ++ hs) := hhs
    have hstep : step s = .next s.sample := h.step_of_not_ready (by simp [Env.hsSample, hcons])
    have hrest : s.sample.env.hs = List.replicate k false ++ hs := by rw [State.sample_of_hs_cons_false hcons]
    rw [run_succ_of_step hstep, ih h.sample hrest, State.sample_of_hs_cons_false hcons]
    simp [List.replicate_succ']

end Sys2Proof.Machine

open Sys2Proof Sys2Proof.Machine

/-- Settles O23: the first `k` of the `n` answers are used up by `k` samples, by induction on `k`; the other `n - k` stay listed. -/
theorem neverReadyNeverLeaves : Obligations.NeverReadyNeverLeaves := by
  unfold Obligations.NeverReadyNeverLeaves
  intro n k s ph more hrx hp hh ho hq hhs hk
  have hpoll : AtPoll ph s := ⟨hrx, hp, hh, ho, hq⟩
  have hsplit : s.env.hs = List.replicate k false ++ (List.replicate (n - k) false ++ more) := by
    rw [hhs, ← List.append_assoc, List.replicate_append_replicate, Nat.add_sub_cancel' hk]
  exact hpoll.run_replicate hsplit

end

section
/-! The `CfgWrite` steps of `INIT` (R197, R201): what one step writes, and the three constants of the frame format. -/

namespace Sys2Proof.Machine

variable {s : State} {k : Fin 8}

/-- At `CFGW(k)`, `INIT` takes the step of the `k`-th write (R201). -/
theorem exec_init_at_cfgw (hp : s.port = none) (ho : s.op = .init) (hq : s.seq = .cfgw k) :
    exec .init s = .next (cfgStep s k) := by
  simp [exec, execInit, initStep, hp, ho, hq]

/-- Every write but the eighth goes on to the next one (R201). -/
theorem cfgStep_of_ne_last (hk : k ≠ 7) : cfgStep s k = (s.writeCfg (cfgWrite s k)).goto (.cfgw (k + 1)) :=
  if_neg hk

/-! ## The frame format: no operand of `INIT` is in it (R197) -/

@[simp] theorem cfgWrite_zero (s : State) : cfgWrite s 0 = .fmtBits 8 := rfl
@[simp] theorem cfgWrite_one (s : State) : cfgWrite s 1 = .fmtMsbFirst true := rfl
@[simp] theorem cfgWrite_two (s : State) : cfgWrite s 2 = .fmtLines 1 := rfl

end Sys2Proof.Machine

open Sys2Proof Sys2Proof.Machine

/-- Settles O37: the first three writes are constants, and each is stored with its event before `INIT` goes on to the next. -/
theorem frameFormatIsConstant : Obligations.FrameFormatIsConstant := by
  unfold Obligations.FrameFormatIsConstant
  intro s hp ho
  refine ⟨fun hq => ?_, fun hq => ?_, fun hq => ?_⟩
  · rw [exec_init_at_cfgw hp ho hq, cfgStep_of_ne_last (by decide), cfgWrite_zero]
    rfl
  · rw [exec_init_at_cfgw hp ho hq, cfgStep_of_ne_last (by decide), cfgWrite_one]
    rfl
  · rw [exec_init_at_cfgw hp ho hq, cfgStep_of_ne_last (by decide), cfgWrite_two]
    rfl

end

section
/-! The stalls of an exchange (R185, R231): the row that is fetched at a TX step, and at an RX step with no valid octet, is the row the
operation sends in its phase, and that row waits for the transport without a trace. -/

namespace Sys2Proof.Machine

variable {s : State} {o : Op} {ph : Phase} {st : Sub} {i : Instr}

/-! ## The transport is not ready -/

/-- With no free transmit slot a TX step only uses up the answer (R185 (a)). -/
theorem State.txStep_of_not_ready (h : s.env.txReady = false) (b : Octet) : s.txStep ph b = { s with env := s.env.popTx } := by
  rcases s.txStep_cases ph b with ⟨hr, -⟩ | ⟨-, e⟩
  · rw [h] at hr; cases hr
  · exact e

/-- With no valid octet a discarding RX step is a stall (R185 (b)). -/
theorem State.rxDiscard_of_none (h : s.env.rxAnswer = none) : s.rxDiscard ph = s.rxStall := by
  rcases s.rxDiscard_cases ph with ⟨v, hv, -⟩ | ⟨-, e⟩
  · rw [h] at hv; cases hv
  · exact e

/-! ## The rows the master sends -/

/-- The rows that an operation sends in a phase (R186): a frame, the message's octets, or filler. -/
inductive MasterRow : Op → Phase → Instr → Prop
  | hdrSend : MasterRow .send .hdr .hdrSend
  | lenOut (l : BitVec 7) (h : Octet) : MasterRow .send .len (.lenOut l h)
  | payOut (d : Octet) : MasterRow .send .pay (.payOut d)
  | hdrRecv : MasterRow .recv .hdr .hdrRecv
  | fillLen : MasterRow .recv .len .fill
  | fillPay : MasterRow .recv .pay .fill

/-- At the TX step of its phase, octet `CNT` of a frame is sent (R113, R114, R132). -/
theorem sendFrame_at_tx {bs : List Octet} (ho : s.op = o) (hq : s.seq = .phase ph .tx) (hc : s.cnt.toNat < bs.length) :
    sendFrame o ph bs s = .next (s.txStep ph bs[s.cnt.toNat]) := by
  simp [sendFrame, ho, hq, hc]

/-- At the RX step of its phase, the octet that comes back against a frame is dropped (R175). -/
theorem sendFrame_at_rx {bs : List Octet} (ho : s.op = o) (hq : s.seq = .phase ph .rx) :
    sendFrame o ph bs s = .next (s.rxDiscard ph) := by
  simp [sendFrame, ho, hq]

/-- At the TX step of its phase, with octets left to send, a master row sends one (R186). -/
theorem MasterRow.exec_at_tx (h : MasterRow o ph i) (ho : s.op = o) (hq : s.seq = .phase ph .tx)
    (hc : s.cnt.toNat < s.octetCount ph) : ∃ b, exec i s = .next (s.txStep ph b) := by
  cases h with
  | hdrSend => exact ⟨_, sendFrame_at_tx (bs := encode .hdrSend) ho hq hc⟩
  | lenOut l h => exact ⟨_, sendFrame_at_tx (bs := encode (.lenOut l h)) ho hq hc⟩
  | payOut d => exact ⟨d, by simp [exec, execPayOut, ho, hq, hc]⟩
  | hdrRecv => exact ⟨_, sendFrame_at_tx (bs := encode .hdrRecv) ho hq hc⟩
  | fillLen => exact ⟨Config.filler, by simp [exec, execFill, fillPhase, ho, hq, hc]⟩
  | fillPay => exact ⟨Config.filler, by simp [exec, execFill, fillPhase, ho, hq, hc]⟩

/-- At the RX step of its phase, a master row waits for an octet to be valid (R185 (b)). -/
theorem MasterRow.exec_at_rx_of_none (h : MasterRow o ph i) (ho : s.op = o) (hq : s.seq = .phase ph .rx)
    (hn : s.env.rxAnswer = none) : exec i s = .next s.rxStall := by
  rw [← State.rxDiscard_of_none (ph := ph) hn]
  cases h with
  | hdrSend => exact sendFrame_at_rx ho hq
  | lenOut l h => exact sendFrame_at_rx ho hq
  | payOut d => simp [exec, execPayOut, ho, hq]
  | hdrRecv => exact sendFrame_at_rx ho hq
  | fillLen => simp [exec, execFill, fillPhase, fillRead, ho, hq, hn, State.rxDiscard_of_none]
  | fillPay => simp [exec, execFill, fillPhase, fillRead, ho, hq, hn, State.rxDiscard_of_none]

/-! ## The row that is fetched -/

/-- A row fetched from octets is what they decode to at their place (R90). -/
theorem fetchFrame_eq_run_iff {p : Place} {bs : List Octet} : fetchFrame p bs = .run i ↔ decodeAt p bs = .ok i := by
  unfold fetchFrame
  cases decodeAt p bs <;> simp

/-- Four octets in the Length phase of `SEND` are an outgoing Length frame, or no row (R83). -/
theorem decodeLengthOut_eq_ok {b0 b1 b2 b3 : Octet} (h : decodeLengthOut b0 b1 b2 b3 = .ok i) :
    i = .lenOut (b0.setWidth 7) b1 := by
  unfold decodeLengthOut at h
  split_ifs at h
  cases h
  rfl

/-- Only `SEND` and `RECV` have phases (R25, R26). -/
theorem seqFits_phase (h : seqFits s.op s.seq = true) (hq : s.seq = .phase ph st) : s.op = .send ∨ s.op = .recv := by
  simpa [seqFits, hq] using h

/-- In the Header phase of `SEND` the frame buffer holds its Header frame (R117). -/
theorem frameFits_hdr_of_send (h : frameFits s = true) (ho : s.op = .send) (hq : s.seq = .phase .hdr st) :
    s.fb = FrameBuf.ofInstr .hdrSend := by
  simpa [frameFits, ho, hq] using h

/-- In the Header phase of `RECV` the frame buffer holds its Header frame (R140). -/
theorem frameFits_hdr_of_recv (h : frameFits s = true) (ho : s.op = .recv) (hq : s.seq = .phase .hdr st) :
    s.fb = FrameBuf.ofInstr .hdrRecv := by
  simpa [frameFits, ho, hq] using h

/-- The row `SEND` is transferring is a row it sends in that phase. -/
theorem masterRow_of_sendRow (hfb : frameFits s = true) (ho : s.op = .send) (hq : s.seq = .phase ph st)
    (hf : sendRow s ph = .run i) : MasterRow .send ph i := by
  cases ph with
  | hdr =>
    simp only [sendRow, frameFits_hdr_of_send hfb ho hq] at hf
    cases hf
    exact .hdrSend
  | len =>
    rw [decodeLengthOut_eq_ok (fetchFrame_eq_run_iff.mp hf)]
    exact .lenOut _ _
  | pay =>
    simp only [sendRow] at hf
    split at hf
    · cases hf
      exact .payOut _
    · cases hf

/-- The row `RECV` sends is a row it sends in that phase. -/
theorem masterRow_of_recvRow (hfb : frameFits s = true) (ho : s.op = .recv) (hq : s.seq = .phase ph st)
    (hf : recvRow s ph = .run i) : MasterRow .recv ph i := by
  cases ph with
  | hdr =>
    simp only [recvRow, frameFits_hdr_of_recv hfb ho hq] at hf
    cases hf
    exact .hdrRecv
  | len =>
    cases hf
    exact .fillLen
  | pay =>
    cases hf
    exact .fillPay

/-- While no octet is valid, the row `RECV` reads is the one it sends: the exchange is still in progress (R89). -/
theorem recvReadRow_of_none (hn : s.env.rxAnswer = none) : recvReadRow s ph = recvRow s ph := by
  cases ph with
  | hdr => rfl
  | len => simp [recvReadRow, hn, recvRow, fetchFrame, decodeAt]
  | pay => simp [recvReadRow, hn, recvRow, fetchFrame, decodeAt]

/-- At a TX step with octets left to send, the row that is fetched is a master row (R186). -/
theorem masterRow_of_fetch_at_tx (hinv : Inv s) (hf : engineFetch s = .run i) (hq : s.seq = .phase ph .tx)
    (hc : s.cnt.toNat < s.octetCount ph) : MasterRow s.op ph i := by
  rcases seqFits_phase hinv.seq hq with ho | ho <;> rw [ho]
  · have hrow : sendRow s ph = .run i := by simpa [engineFetch, ho, hq, hc] using hf
    exact masterRow_of_sendRow hinv.frame ho hq hrow
  · have hrow : recvRow s ph = .run i := by simpa [engineFetch, ho, hq, hc] using hf
    exact masterRow_of_recvRow hinv.frame ho hq hrow

/-- At an RX step with no valid octet, the row that is fetched is a master row (R186). -/
theorem masterRow_of_fetch_at_rx (hinv : Inv s) (hf : engineFetch s = .run i) (hq : s.seq = .phase ph .rx)
    (hn : s.env.rxAnswer = none) : MasterRow s.op ph i := by
  rcases seqFits_phase hinv.seq hq with ho | ho <;> rw [ho]
  · have hrow : sendRow s ph = .run i := by simpa [engineFetch, ho, hq] using hf
    exact masterRow_of_sendRow hinv.frame ho hq hrow
  · have hrow : recvRow s ph = .run i := by simpa [engineFetch, ho, hq, recvReadRow_of_none hn] using hf
    exact masterRow_of_recvRow hinv.frame ho hq hrow

end Sys2Proof.Machine

open Sys2Proof Sys2Proof.Machine

/-- Settles O18: the row that is fetched is the master row of its phase, and a master row with the transport not ready is stalled. -/
theorem notReadyIsRetried : Obligations.NotReadyIsRetried := by
  unfold Obligations.NotReadyIsRetried
  intro s i _ hf hinv
  refine ⟨fun ph hq hc hnr => ?_, fun ph hq hn => ?_⟩
  · obtain ⟨b, he⟩ := (masterRow_of_fetch_at_tx hinv hf hq hc).exec_at_tx rfl hq hc
    rw [he, State.txStep_of_not_ready hnr]
  · exact (masterRow_of_fetch_at_rx hinv hf hq hn).exec_at_rx_of_none rfl hq hn

end

section
/-! Encoder and decoder of the table's rows (R81 to R95). One lemma carries both directions of the round trip: octets decode at a place to an
instruction exactly when they are its octets and that is its place. The words of R91 are these octets read as one number. -/

namespace Sys2Proof

variable {b0 b1 b2 b3 : Octet} {i : Instr}

/-! ## Byte0 of a Length frame -/

/-- An octet is its bit 7 followed by its low seven bits (R84). -/
theorem ofBool_msb_append_setWidth (b : Octet) : (BitVec.ofBool b.msb ++ b.setWidth 7 : BitVec (1 + 7)) = b := by
  have hcons : BitVec.cons b.msb (b.setWidth 7) = b := BitVec.cons_msb_setWidth b
  exact hcons

/-- As a number, an octet put together from bit 7 and the low seven bits. -/
theorem append_seven_toNat (u : BitVec 1) (l : BitVec 7) : (u ++ l : BitVec (1 + 7)).toNat = u.toNat * 128 + l.toNat := by
  rw [BitVec.toNat_append, ← Nat.shiftLeft_add_eq_or_of_lt l.isLt, Nat.shiftLeft_eq]

/-- Seven bits widened to an octet leave bit 7 clear (R83). -/
theorem msb_setWidth_eight (l : BitVec 7) : (l.setWidth 8).msb = false := by
  simp [BitVec.msb_setWidth]

/-- An octet with bit 7 clear is its low seven bits, widened (R83). -/
theorem setWidth_eight_of_msb (h : b0.msb = false) : (b0.setWidth 7).setWidth 8 = b0 := by
  have hlow : 2 * b0.toNat < 256 := BitVec.msb_eq_false_iff_two_mul_lt.mp h
  apply BitVec.eq_of_toNat_eq
  simp only [BitVec.toNat_setWidth]
  omega

/-! ## One lemma per place -/

/-- What the four command codes are (R93). -/
theorem decodeCommand_cases (b : Octet) (h : b.toNat < 4) :
    place (decodeCommand (b.setWidth 2)) = .command ∧ encode (decodeCommand (b.setWidth 2)) = [b] := by
  have hcode : b = 0 ∨ b = 1 ∨ b = 2 ∨ b = 3 := by bv_omega
  rcases hcode with rfl | rfl | rfl | rfl <;> decide

/-- The octets that are a Header frame (R81, R82). -/
theorem decodeHeader_eq_ok (h : decodeHeader b0 b1 b2 b3 = .ok i) : place i = .header ∧ encode i = [b0, b1, b2, b3] := by
  unfold decodeHeader at h
  split at h
  · next hzero =>
    obtain ⟨rfl, rfl, rfl⟩ := hzero
    split at h
    · next hop => cases h; exact ⟨rfl, by rw [hop]; rfl⟩
    · split at h
      · next hop => cases h; exact ⟨rfl, by rw [hop]; rfl⟩
      · cases h
  · cases h

/-- The octets that are an outgoing Length frame (R83). -/
theorem decodeLengthOut_octets (h : decodeLengthOut b0 b1 b2 b3 = .ok i) :
    place i = .lengthOut ∧ encode i = [b0, b1, b2, b3] := by
  unfold decodeLengthOut at h
  split_ifs at h with hmsb hres hmark
  simp only [ne_eq, not_not] at hres hmark
  cases h
  exact ⟨rfl, by simp [encode, setWidth_eight_of_msb (by simpa using hmsb), hres, hmark]⟩

/-- Every four octets are an incoming Length frame (R84). -/
theorem encode_decodeLengthIn (b0 b1 b2 b3 : Octet) : encode (decodeLengthIn b0 b1 b2 b3) = [b0, b1, b2, b3] := by
  simp only [decodeLengthIn, encode]
  rw [ofBool_msb_append_setWidth]

/-- The fields of a Length frame come back from its octets (R83). -/
theorem decodeLengthOut_encode (l : BitVec 7) (h : Octet) :
    decodeLengthOut (l.setWidth 8) h Config.reserved Config.markOut = .ok (.lenOut l h) := by
  simp [decodeLengthOut, msb_setWidth_eight]

/-- The fields of an incoming Length frame come back from its octets (R84). -/
theorem decodeLengthIn_encode (u : BitVec 1) (l : BitVec 7) (h v m : Octet) :
    decodeLengthIn (u ++ l : BitVec (1 + 7)) h v m = .lenIn u l h v m := by
  have hmsb : BitVec.ofBool (u ++ l : BitVec (1 + 7)).msb = u := by
    rw [BitVec.msb_append]
    fin_cases u <;> rfl
  have hlow : (u ++ l : BitVec (1 + 7)).setWidth 7 = l := by
    apply BitVec.eq_of_toNat_eq
    rw [BitVec.toNat_setWidth, append_seven_toNat, Nat.mul_add_mod_of_lt l.isLt]
  simp only [decodeLengthIn]
  rw [hmsb, hlow]

/-! ## Both directions -/

/-- Decoding at a place answers only an instruction of that place with those octets. -/
theorem place_encode_of_decodeAt {p : Place} {bs : List Octet} (h : decodeAt p bs = .ok i) : place i = p ∧ encode i = bs := by
  unfold decodeAt at h
  split at h
  case h_1 b =>
    split at h
    · next hcode => cases h; exact decodeCommand_cases b hcode
    · cases h
  case h_2 => exact decodeHeader_eq_ok h
  case h_3 => exact decodeLengthOut_octets h
  case h_4 => cases h; exact ⟨rfl, encode_decodeLengthIn _ _ _ _⟩
  case h_5 => cases h; exact ⟨rfl, rfl⟩
  case h_6 b =>
    split at h
    · next hfill => cases h; exact ⟨rfl, by rw [hfill]; rfl⟩
    · cases h
  case h_7 => cases h; exact ⟨rfl, rfl⟩
  case h_8 => cases h

/-- An instruction comes back from its octets at its place. -/
theorem decodeAt_place_encode (i : Instr) : decodeAt (place i) (encode i) = .ok i := by
  cases i with
  | lenOut l h => exact decodeLengthOut_encode l h
  | lenIn u l h v m => exact congrArg Except.ok (decodeLengthIn_encode u l h v m)
  | payOut d => rfl
  | payIn d => rfl
  | hdrSend | hdrRecv | fill | init | send | recv | query => decide

/-- Each word of a place has one meaning, and each instruction of a place one word (R90). -/
theorem decodeAt_eq_ok_iff {p : Place} {bs : List Octet} : decodeAt p bs = .ok i ↔ place i = p ∧ encode i = bs := by
  refine ⟨place_encode_of_decodeAt, ?_⟩
  rintro ⟨rfl, rfl⟩
  exact decodeAt_place_encode i

/-! ## Words (R91, R92) -/

/-- The octets of a 32-bit word are four given octets exactly when it is their word. -/
theorem eq_octetsOf_four_iff {w : Nat} (hw : w < 2 ^ 32) :
    [b0, b1, b2, b3] = octetsOf 4 w ↔ w = wordOf [b0, b1, b2, b3] := by
  have h0 := b0.isLt
  have h1 := b1.isLt
  have h2 := b2.isLt
  have h3 := b3.isLt
  simp only [octetsOf, wordOf, List.cons.injEq, and_true, ← BitVec.toNat_inj, BitVec.toNat_ofNat, List.length_cons,
    List.length_nil]
  omega

/-- The mask of `LEN_OUT` keeps bit 31 and the low two octets. -/
theorem land_lenOutMask (w : Nat) : w &&& 0x8000FFFF = (w.testBit 31).toNat * 2 ^ 31 + w % 2 ^ 16 := by
  have hmask : (0x8000FFFF : Nat) = 2 ^ 31 ||| (2 ^ 16 - 1) := by decide
  have hlow : w % 2 ^ 16 < 2 ^ 31 := Nat.lt_of_lt_of_le (Nat.mod_lt _ (by decide)) (by decide)
  rw [hmask, Nat.and_or_distrib_left, Nat.and_two_pow, Nat.and_two_pow_sub_one_eq_mod, Nat.mul_comm,
    ← Nat.two_pow_add_eq_or_of_lt hlow]

/-- A 32-bit word matches the row of `LEN_OUT` exactly when bit 31 is clear and its low two octets are `00 41`. -/
theorem land_lenOutMask_eq_iff {w : Nat} (hw : w < 2 ^ 32) : w &&& 0x8000FFFF = 0x41 ↔ w < 2 ^ 31 ∧ w % 2 ^ 16 = 0x41 := by
  have hlow : w % 2 ^ 16 < 2 ^ 16 := Nat.mod_lt _ (by decide)
  rw [land_lenOutMask, Nat.testBit_eq_decide_div_mod_eq]
  by_cases hbit : w / 2 ^ 31 % 2 = 1
  · simp only [hbit, decide_true, Bool.toNat_true]
    omega
  · simp only [hbit, decide_false, Bool.toNat_false]
    omega

/-- The word of an outgoing Length frame, as a number. -/
theorem wordOf_lenOut (l : BitVec 7) (h : Octet) :
    wordOf (encode (.lenOut l h)) = l.toNat * 2 ^ 24 + h.toNat * 2 ^ 16 + 0x41 := by
  have hl : l.toNat % 256 = l.toNat := Nat.mod_eq_of_lt (Nat.lt_trans l.isLt (by decide))
  simp [encode, wordOf, hl, Config.reserved, Config.markOut, Nat.add_assoc]

/-- Octets make a word of eight bits each. -/
theorem wordOf_lt (bs : List Octet) : wordOf bs < 2 ^ (8 * bs.length) := by
  induction bs with
  | nil => decide
  | cons b r ih =>
    have hpow : (2 : Nat) ^ (8 * (r.length + 1)) = 256 * 256 ^ r.length := by
      rw [show (256 : Nat) = 2 ^ 8 by decide, ← pow_mul, ← pow_add]; congr 1; omega
    have hrest : wordOf r < 256 ^ r.length := by rwa [show (256 : Nat) = 2 ^ 8 by decide, ← pow_mul]
    have hb : b.toNat + 1 ≤ 256 := b.isLt
    calc b.toNat * 256 ^ r.length + wordOf r < b.toNat * 256 ^ r.length + 256 ^ r.length := by omega
      _ = (b.toNat + 1) * 256 ^ r.length := by rw [Nat.succ_mul]
      _ ≤ 256 * 256 ^ r.length := Nat.mul_le_mul_right _ hb
      _ = 2 ^ (8 * (b :: r).length) := hpow.symm

/-- Which words decode at a place of four octets to a given instruction. -/
theorem decodeAt_octetsOf_four_iff {w : Nat} (hw : w < 2 ^ 32) (hlen : (encode i).length = 4) :
    decodeAt (place i) (octetsOf 4 w) = .ok i ↔ w = wordOf (encode i) := by
  rw [decodeAt_eq_ok_iff]
  match hb : encode i, hlen with
  | [b0, b1, b2, b3], _ => simp [eq_octetsOf_four_iff hw]

/-! ## The length codec (R85, R86) -/

open Machine

/-- The mask of the low seven bits, at the width of a length. -/
theorem toNat_sevenBits15 : (0x7F : Len15).toNat = 127 := rfl

/-- The mask of the low seven bits, at the width of an octet. -/
theorem toNat_sevenBits8 : (0x7F : Octet).toNat = 127 := rfl

/-- The low and the high part of a length, as the octets of its frame (R85). -/
theorem encLen_eq (len : Len15) : encLen len = [BitVec.ofNat 8 (len.toNat % 128), BitVec.ofNat 8 (len.toNat / 128), 0x00, 0x41] := by
  have hl := len.isLt
  have hlow : (((len &&& 0x7F).setWidth 7).setWidth 8 : Octet) = BitVec.ofNat 8 (len.toNat % 128) := by
    apply BitVec.eq_of_toNat_eq
    have hand : len.toNat &&& 127 = len.toNat % 128 := Nat.and_two_pow_sub_one_eq_mod _ 7
    simp only [BitVec.toNat_setWidth, BitVec.toNat_and, toNat_sevenBits15, hand, BitVec.toNat_ofNat]
    omega
  have hhigh : ((len >>> 7).setWidth 8 : Octet) = BitVec.ofNat 8 (len.toNat / 128) := by
    apply BitVec.eq_of_toNat_eq
    simp [Nat.shiftRight_eq_div_pow]
  simp only [encLen, lengthFrame, encode]
  rw [hlow, hhigh]
  rfl

/-- The decoded length as a number (R86). -/
theorem decLen_toNat (b0 b1 : Octet) : (decLen b0 b1).toNat = b1.toNat * 128 + b0.toNat % 128 := by
  have h1 := b1.isLt
  have hand : b0.toNat &&& 127 = b0.toNat % 128 := Nat.and_two_pow_sub_one_eq_mod _ 7
  have hlow : b0.toNat % 128 % 2 ^ 15 < 2 ^ 7 := by omega
  have hhigh : (b1.toNat % 2 ^ 15) <<< 7 % 2 ^ 15 = b1.toNat <<< 7 := by
    simp only [Nat.shiftLeft_eq]; omega
  simp only [decLen, BitVec.toNat_or, BitVec.toNat_shiftLeft, BitVec.toNat_setWidth, BitVec.toNat_and, toNat_sevenBits8, hand,
    hhigh]
  rw [← Nat.shiftLeft_add_eq_or_of_lt hlow, Nat.shiftLeft_eq]
  omega

end Sys2Proof

open Sys2Proof Sys2Proof.Machine

/-- Settles O2: `decodeAt_eq_ok_iff` from right to left; every instruction is well formed. -/
theorem decodeUndoesEncode : Obligations.DecodeUndoesEncode := by
  unfold Obligations.DecodeUndoesEncode
  intro i _
  exact decodeAt_place_encode i

/-- Settles O3: `decodeAt_eq_ok_iff` from left to right. -/
theorem encodeUndoesDecode : Obligations.EncodeUndoesDecode := by
  unfold Obligations.EncodeUndoesDecode
  intro p bs i h
  exact (decodeAt_eq_ok_iff.mp h).symm

/-- Settles O4: only `LEN_OUT` has a mask with fields under it; the rows of fixed words are computed, and a mask of zero asks for nothing. -/
theorem encodedWordMatchesTableRow : Obligations.EncodedWordMatchesTableRow := by
  unfold Obligations.EncodedWordMatchesTableRow
  intro i
  cases i with
  | lenOut l h =>
    have hl := l.isLt
    have hh := h.isLt
    have hfits : wordOf (encode (.lenOut l h)) < 2 ^ 32 := wordOf_lt _
    refine ⟨(land_lenOutMask_eq_iff hfits).mpr ?_, hfits, rfl⟩
    rw [wordOf_lenOut]
    omega
  | lenIn u l h v m => exact ⟨Nat.and_zero _, wordOf_lt _, rfl⟩
  | payOut d => exact ⟨Nat.and_zero _, wordOf_lt _, rfl⟩
  | payIn d => exact ⟨Nat.and_zero _, wordOf_lt _, rfl⟩
  | hdrSend | hdrRecv | fill | init | send | recv | query => decide

/-- Settles O5: a word decodes to a frame exactly when it is the frame's word, and the word of a Length frame is its fields and the fixed bits. -/
theorem wordsOfTheMaster : Obligations.WordsOfTheMaster := by
  unfold Obligations.WordsOfTheMaster
  intro w hw
  refine ⟨decodeAt_octetsOf_four_iff (i := .hdrSend) hw rfl, decodeAt_octetsOf_four_iff (i := .hdrRecv) hw rfl, fun l h => ?_⟩
  have hl := l.isLt
  have hh := h.isLt
  have hword : decodeAt .lengthOut (octetsOf 4 w) = .ok (.lenOut l h) ↔ w = wordOf (encode (.lenOut l h)) :=
    decodeAt_octetsOf_four_iff (i := .lenOut l h) hw rfl
  rw [hword, wordOf_lenOut, land_lenOutMask_eq_iff hw]
  omega

/-- Settles O7: the two parts of a length fit an octet, so their octets have these values. -/
theorem lengthCodecValues : Obligations.LengthCodecValues := by
  unfold Obligations.LengthCodecValues
  refine ⟨fun len => ⟨_, _, encLen_eq len, ?_, ?_⟩, decLen_toNat⟩
  all_goals
    have hl := len.isLt
    rw [BitVec.toNat_ofNat]
    omega

/-- Settles O8: both directions by the values of `Enc` and `Dec`, since a length is 128 times its quotient plus its remainder. -/
theorem lengthRoundTrip : Obligations.LengthRoundTrip := by
  unfold Obligations.LengthRoundTrip
  refine ⟨fun len => ⟨_, _, _, _, encLen_eq len, ?_⟩, fun b0 b1 hb => ⟨0x00, 0x41, ?_⟩⟩
  · have hl := len.isLt
    apply BitVec.eq_of_toNat_eq
    rw [decLen_toNat, BitVec.toNat_ofNat, BitVec.toNat_ofNat]
    omega
  · have hlow : (decLen b0 b1).toNat % 128 = b0.toNat := by rw [decLen_toNat]; omega
    have hhigh : (decLen b0 b1).toNat / 128 = b1.toNat := by rw [decLen_toNat]; omega
    rw [encLen_eq, hlow, hhigh, BitVec.ofNat_toNat, BitVec.ofNat_toNat, BitVec.setWidth_eq, BitVec.setWidth_eq]

/-- Settles O6: every four octets at the place of `LEN_IN` decode, and byte0 is its bit 7 and its low seven bits. -/
theorem nothingReturnedIsIllegal : Obligations.NothingReturnedIsIllegal := by
  unfold Obligations.NothingReturnedIsIllegal
  refine ⟨fun b0 b1 b2 b3 => ⟨BitVec.ofBool b0.msb, b0.setWidth 7, rfl, ?_⟩, fun d => rfl⟩
  rw [← append_seven_toNat, ofBool_msb_append_setWidth]

/-- Settles O1: each of the ten words is computed. -/
theorem tableWordsDecode : Obligations.TableWordsDecode := by
  unfold Obligations.TableWordsDecode
  decide

end

section
/-! Every step keeps the invariant (R37). The clauses of `Inv` look at few fields, so one rule per kind of step covers all the rows: a step that
changes nothing they look at, a step inside a phase, the entry of a phase, and the return to idle. -/

namespace Sys2Proof

open Machine

variable {s t : State} {ph : Phase} {st st' : Sub}

/-! ## Counting octets -/

/-- The octet count of a phase fits 15 bits (R37). -/
theorem Machine.State.octetCount_lt (s : State) (ph : Phase) : s.octetCount ph < 2 ^ 15 := by
  cases ph with
  | hdr => exact (by decide : Config.frameLen < 2 ^ 15)
  | len => exact (by decide : Config.frameLen < 2 ^ 15)
  | pay =>
    cases ho : s.op with
    | recv => simpa [State.octetCount, ho] using s.nrd.isLt
    | send => simpa [State.octetCount, ho] using s.len.isLt
    | none | init => simp [State.octetCount, ho]

/-- Below the octet count of a phase, `CNT` counts on without running over. -/
theorem Machine.State.cnt_succ_toNat (hc : s.cnt.toNat < s.octetCount ph) : (s.cnt + 1).toNat = s.cnt.toNat + 1 := by
  have := s.octetCount_lt ph
  rw [BitVec.toNat_add]
  exact Nat.mod_eq_of_lt (by simp; omega)

/-- `CNT` fits at an RX step when an octet is left to be read (R37). -/
theorem countFits_at_rx (hq : s.seq = .phase ph .rx) : countFits s = true ↔ s.cnt.toNat < s.octetCount ph := by
  simp only [countFits, hq, Nat.blt_eq]

/-- `CNT` fits at any other step of a phase when it is at most the octet count (R37). -/
theorem countFits_off_rx (hq : s.seq = .phase ph st) (hne : st ≠ .rx) : countFits s = true ↔ s.cnt.toNat ≤ s.octetCount ph := by
  cases st with
  | rx => exact absurd rfl hne
  | tx | rel | dly | hs => simp only [countFits, hq, Nat.ble_eq]

/-- After the octet that was read, `CNT` is not clear and the last event is that octet (R63). -/
theorem traceFits_after_rx (hc : s.cnt.toNat < s.octetCount ph) (v : Octet) :
    traceFits { s with trace := .rx v :: s.trace, cnt := s.cnt + 1, seq := .phase ph .tx } = true := by
  have hne : s.cnt + 1 ≠ 0 := by
    intro h0
    have := State.cnt_succ_toNat hc
    rw [h0] at this
    simp at this
  simp only [traceFits, lastEvent, isRxEvent, bne_iff_ne.mpr hne, Bool.and_true, Bool.or_true]


/-! ## The kinds of step -/

/-- No clause looks at the mode, the ports, the environment, the host, the marks or the clock operand. -/
theorem Inv.outside (h : Inv s) (m : TMode) (z : Nat) (p : Option Request) (r : Option Reply) (e : Env) (a : List HostAct)
    (k : List Reason) : Inv { s with tmode := m, hz := z, port := p, ret := r, env := e, host := a, marks := k } :=
  ⟨h.params, h.seq, h.cs, h.count, h.frame, h.send, h.nrd, h.cfg, h.valid, h.dst, h.trace⟩

/-- What the invariant says of a state wherever the sequencer is, chip-select being released. -/
structure Quiet (s : State) : Prop where
  params : s.par.wf = true
  cs : s.csAct = false
  cfg : s.cfgValid = true → cfgLegal s.par s.cfg = true
  dst : Memory.wf s.dst = true

/-- Once valid, the configuration is legal (R24). -/
theorem Inv.legal (h : Inv s) (hv : s.cfgValid = true) : cfgLegal s.par s.cfg = true := by
  have hcfg := h.cfg
  simp only [cfgFits, hv, Bool.and_eq_true] at hcfg
  exact hcfg.1

/-- Where `CS_ACT` may not be 1, it is 0 (R37). -/
theorem Inv.quiet (h : Inv s) (hq : csMayAct s.seq = false) : Quiet s where
  params := h.params
  cs := by
    cases hc : s.csAct with
    | false => rfl
    | true => have := h.cs hc; rw [hq] at this; cases this
  cfg := h.legal
  dst := h.dst

/-- The idle block satisfies the invariant, whatever its working registers hold. -/
theorem Quiet.inv_of_idle (h : Quiet s) (ho : s.op = .none) (hq : s.seq = .idle) : Inv s where
  params := h.params
  seq := by simp [seqFits, ho, hq]
  cs := by simp [h.cs]
  count := by simp [countFits, hq]
  frame := by simp [frameFits, ho]
  send := by simp [sendFits, ho]
  nrd := by simp [nrdFits, ho]
  cfg := by cases hv : s.cfgValid <;> simp [cfgFits, hq, hv, h.cfg]
  valid := by simp [validFits, ho]
  dst := h.dst
  trace := by simp [traceFits, hq]

/-- A step inside a phase: the link, the trace, `CS_ACT`, `CNT`, the sub-step and the destination may change. -/
theorem Inv.inPhase (h : Inv s) (hq : s.seq = .phase ph st) {e : Env} {tr : List Event} {c : Bool} {n : BitVec 15} {d : Memory}
    (hcs : c = true → csMayAct (.phase ph st') = true) (hcount : countFits { s with cnt := n, seq := .phase ph st' } = true)
    (hdst : Memory.wf d = true) (htrace : traceFits { s with trace := tr, cnt := n, seq := .phase ph st' } = true) :
    Inv { s with env := e, trace := tr, csAct := c, cnt := n, seq := .phase ph st', dst := d } where
  params := h.params
  seq := by simpa [seqFits, hq] using h.seq
  cs := hcs
  count := hcount
  frame := by
    have hf := h.frame
    cases ho : s.op <;> cases ph <;> simp_all [frameFits]
  send := by simpa [sendFits, hq] using h.send
  nrd := by
    have hn := h.nrd
    cases ph <;> simpa [nrdFits, hq] using hn
  cfg := by simpa [cfgFits, hq] using h.cfg
  valid := h.valid
  dst := hdst
  trace := htrace

/-- The entry of a phase, with `CNT` clear: the frame, the length and the payload count have to be those of the phase. -/
theorem Quiet.inv_of_entry (h : Quiet s) (hq : s.seq = .phase ph .tx) (ho : s.op = .send ∨ s.op = .recv) (hv : s.cfgValid = true)
    (hc : s.cnt = 0) (hframe : frameFits s = true) (hsend : sendFits s = true) (hnrd : nrdFits s = true)
    (htrace : ph = .hdr ∨ lastEvent s (· == .hs true) = true) : Inv s where
  params := h.params
  seq := by simpa [seqFits, hq] using ho
  cs := by simp [h.cs]
  count := by simp [countFits, hq, hc]
  frame := hframe
  send := hsend
  nrd := hnrd
  cfg := by simp [cfgFits, hq, h.cfg hv]
  valid := by simp [validFits, hv]
  dst := h.dst
  trace := by simpa [traceFits, hq, hc] using htrace

/-! ## The exchange of an octet -/

/-- At an RX step an octet is left to be read (R37). -/
theorem Inv.cnt_lt_at_rx (h : Inv s) (hq : s.seq = .phase ph .rx) : s.cnt.toNat < s.octetCount ph :=
  (countFits_at_rx hq).mp h.count

/-- At any other step of a phase, `CNT` is at most its octet count (R37). -/
theorem Inv.cnt_le (h : Inv s) (hq : s.seq = .phase ph st) : s.cnt.toNat ≤ s.octetCount ph := by
  by_cases hst : st = .rx
  · exact Nat.le_of_lt (h.cnt_lt_at_rx (hst ▸ hq))
  · exact (countFits_off_rx hq hst).mp h.count

theorem Inv.txStep (h : Inv s) (hq : s.seq = .phase ph .tx) (hc : s.cnt.toNat < s.octetCount ph) (b : Octet) :
    Inv (s.txStep ph b) := by
  rcases s.txStep_cases ph b with ⟨-, e⟩ | ⟨-, e⟩ <;> rw [e]
  · exact h.inPhase hq (fun _ => rfl) ((countFits_at_rx rfl).mpr hc) h.dst rfl
  · exact h.outside _ _ _ _ _ _ _

theorem Inv.rxStall (h : Inv s) : Inv s.rxStall := h.outside _ _ _ _ _ _ _

/-- The octet that is read is stored, or dropped. -/
theorem Inv.rxTake (h : Inv s) (hq : s.seq = .phase ph .rx) (v : Octet) {d : Memory} (hd : Memory.wf d = true) :
    Inv (State.rxTake { s with dst := d } ph v) := by
  have hc := h.cnt_lt_at_rx hq
  have hcs : s.csAct = true → csMayAct (.phase ph .tx) = true := fun _ => rfl
  have hsucc : (s.cnt + 1).toNat ≤ s.octetCount ph := by rw [State.cnt_succ_toNat hc]; exact hc
  have hcount : countFits { s with cnt := s.cnt + 1, seq := .phase ph .tx } = true :=
    (countFits_off_rx (st := .tx) rfl nofun).mpr hsucc
  exact h.inPhase hq hcs hcount hd (traceFits_after_rx hc v)

theorem Inv.rxDiscard (h : Inv s) (hq : s.seq = .phase ph .rx) : Inv (s.rxDiscard ph) := by
  rcases s.rxDiscard_cases ph with ⟨v, -, e⟩ | ⟨-, e⟩ <;> rw [e]
  · exact h.rxTake hq v h.dst
  · exact h.rxStall

/-- The capture of an octet of the Length frame: no clause looks at `FB` or `LEN` in the Length phase of `RECV`, `NRD` being clear there. -/
theorem Inv.captureLen (h : Inv s) (ho : s.op = .recv) (hq : s.seq = .phase .len .rx) (v : Octet) : Inv (s.captureLen v) := by
  have taken : Inv (s.rxTake .len v) := h.rxTake hq v h.dst
  have hnrd : s.nrd = 0 := (nrdFits_recv h.nrd ho).2.2.2 ⟨.rx, Or.inr hq⟩
  exact {
    params := taken.params, seq := taken.seq, cs := taken.cs, cfg := taken.cfg, valid := taken.valid, dst := taken.dst
    trace := taken.trace
    count := by simpa [countFits, State.octetCount] using taken.count
    frame := by simp [frameFits, ho]
    send := by simp [sendFits, ho]
    nrd := by simp [nrdFits, ho, hnrd] }

/-! ## The boundary -/

/-- Another sub-step of the phase, with `CNT` as it was: only the clauses on `CS_ACT` and on the order of events are left to be shown. -/
theorem Inv.toSub (h : Inv s) (st' : Sub) (hq : s.seq = .phase ph st) (hne : st' ≠ .rx) {e : Env} {tr : List Event} {c : Bool}
    (hcs : c = true → csMayAct (.phase ph st') = true) (htrace : traceFits { s with trace := tr, seq := .phase ph st' } = true) :
    Inv { s with env := e, trace := tr, csAct := c, seq := .phase ph st' } :=
  h.inPhase hq hcs ((countFits_off_rx (st := st') rfl hne).mpr (h.cnt_le hq)) h.dst htrace

theorem Inv.goto_rel (h : Inv s) (hq : s.seq = .phase ph .tx) : Inv (s.goto (.phase ph .rel)) := by
  have htrace : traceFits { s with seq := .phase ph .rel } = true := by
    have hs := h.trace
    simp only [traceFits, hq] at hs
    exact hs
  exact h.toSub .rel hq nofun (fun _ => rfl) htrace

theorem Inv.relStep (h : Inv s) (hq : s.seq = .phase ph .rel) : Inv (s.relStep ph) :=
  h.toSub .dly hq nofun nofun rfl

theorem Inv.dlyStep (h : Inv s) (hq : s.seq = .phase ph .dly) : Inv (s.dlyStep ph) := by
  have hcs : s.csAct = false := (h.quiet (by rw [hq]; rfl)).cs
  exact h.toSub .hs hq nofun (by simp [hcs]) (by simp [traceFits, lastEvent])

/-- A sample that does not read Ready stays at the poll (R178). -/
theorem Inv.sample (h : Inv s) (hq : s.seq = .phase ph .hs) (hn : s.env.hsSample = false) : Inv s.sample := by
  have hcs : s.csAct = false := (h.quiet (by rw [hq]; rfl)).cs
  have hs : s.sample = { s with env := s.env.popHs, trace := .hs false :: s.trace, seq := .phase ph .hs } := by
    simp [State.sample, State.emit, hn, ← hq]
  rw [hs]
  exact h.toSub .hs hq nofun (by simp [hcs]) (by simp [traceFits, lastEvent])

/-- In `SEND` outside the mode step, the message fits its port and `LEN` is what the mode step fixed (R51, R112). -/
theorem Inv.len_of_send (h : Inv s) (ho : s.op = .send) :
    s.msg.length ≤ Config.lenMax ∧ (s.seq ≠ .mode → s.len = sendLen s.par s.msg) := by
  have hs := h.send
  simp only [sendFits, ho, bne_self_eq_false, Bool.false_or, Bool.and_eq_true, Bool.or_eq_true, beq_iff_eq, Nat.ble_eq] at hs
  exact ⟨hs.1, fun hq => hs.2.resolve_left hq⟩

/-- A transfer runs only on a configured transport (R111, R131). -/
theorem Inv.cfgValid (h : Inv s) (ho : s.op = .send ∨ s.op = .recv) : s.cfgValid = true := by
  have hv := h.valid
  rcases ho with ho | ho <;> simpa [validFits, ho] using hv

/-- The state in which `SEND` or `RECV` goes on after a Ready sample. -/
theorem Inv.quiet_sample (h : Inv s) (hq : csMayAct s.seq = false) : Quiet s.sample :=
  ⟨h.params, (h.quiet hq).cs, h.legal, h.dst⟩

/-- After a Ready sample `SEND` enters its next phase with that phase's frame in `FB`, or completes (R116, R186). -/
theorem Inv.sendAfter (h : Inv s) (ho : s.op = .send) (hq : s.seq = .phase ph .hs) (hr : s.env.hsSample = true) :
    Inv (sendAfter ph { s.sample with cnt := 0 }) := by
  obtain ⟨hpar, hcs, hcfg, hdst⟩ := h.quiet_sample (by rw [hq]; rfl)
  have hv : s.cfgValid = true := h.cfgValid (Or.inl ho)
  have hlast : lastEvent s.sample (· == .hs true) = true := by simp [lastEvent, hr]
  obtain ⟨hmsg, hlen⟩ := h.len_of_send ho
  have hsend : s.len = sendLen s.par s.msg := hlen (by simp [hq])
  cases ph with
  | hdr =>
    refine Quiet.inv_of_entry ⟨hpar, hcs, hcfg, hdst⟩ (ph := .len) rfl (Or.inl ho) hv rfl ?_ ?_ ?_ (Or.inr hlast)
    · simp [Machine.sendAfter, frameFits, ho]
    · simp [Machine.sendAfter, sendFits, Nat.ble_eq, hmsg, hsend]
    · simp [Machine.sendAfter, nrdFits, ho]
  | len =>
    refine Quiet.inv_of_entry ⟨hpar, hcs, hcfg, hdst⟩ (ph := .pay) rfl (Or.inl ho) hv rfl ?_ ?_ ?_ (Or.inr hlast)
    · simp [Machine.sendAfter, frameFits, ho]
    · simp [Machine.sendAfter, sendFits, Nat.ble_eq, hmsg, hsend]
    · simp [Machine.sendAfter, nrdFits, ho]
  | pay => exact Quiet.inv_of_idle ⟨hpar, hcs, hcfg, hdst⟩ rfl rfl

/-- After a Ready sample `RECV` enters its next phase, with `NRD` fixed when that is the Payload phase (R135), or post-processing. -/
theorem Inv.recvAfter (h : Inv s) (ho : s.op = .recv) (hq : s.seq = .phase ph .hs) (hr : s.env.hsSample = true) :
    Inv (recvAfter ph { s.sample with cnt := 0 }) := by
  obtain ⟨hpar, hcs, hcfg, hdst⟩ := h.quiet_sample (by rw [hq]; rfl)
  have hv : s.cfgValid = true := h.cfgValid (Or.inr ho)
  have hlast : lastEvent s.sample (· == .hs true) = true := by simp [lastEvent, hr]
  obtain ⟨hnlen, hnmax, hnpay, hnclear⟩ := nrdFits_recv h.nrd ho
  cases ph with
  | hdr =>
    have hn : s.nrd = 0 := hnclear ⟨.hs, Or.inl hq⟩
    refine Quiet.inv_of_entry ⟨hpar, hcs, hcfg, hdst⟩ (ph := .len) rfl (Or.inr ho) hv rfl ?_ ?_ ?_ (Or.inr hlast)
    · simp [Machine.recvAfter, frameFits, ho]
    · simp [Machine.recvAfter, sendFits, ho]
    · simp [Machine.recvAfter, nrdFits, hn]
  | len =>
    refine Quiet.inv_of_entry ⟨hpar, hcs, hcfg, hdst⟩ (ph := .pay) rfl (Or.inr ho) hv rfl ?_ ?_ ?_ (Or.inr hlast)
    · simp [Machine.recvAfter, frameFits, ho]
    · simp [Machine.recvAfter, sendFits, ho]
    · simp [Machine.recvAfter, nrdFits, Nat.ble_eq, payloadCount_le]
  | pay =>
    have hn : s.nrd = payloadCount s.len s.maxl := hnpay (Or.inl ⟨.hs, hq⟩)
    exact {
      params := hpar, cs := by simp [Machine.recvAfter, (h.quiet (by rw [hq]; rfl)).cs], dst := hdst
      seq := by simp [Machine.recvAfter, seqFits, ho]
      count := by simp [Machine.recvAfter, countFits]
      frame := by simp [Machine.recvAfter, frameFits, ho]
      send := by simp [Machine.recvAfter, sendFits, ho]
      nrd := by simp [Machine.recvAfter, nrdFits, Nat.ble_eq, hn, payloadCount_le]
      cfg := by simpa [Machine.recvAfter, cfgFits, hv] using hcfg hv
      valid := by simp [Machine.recvAfter, validFits, hv]
      trace := by simpa [Machine.recvAfter, traceFits, lastEvent] using hr }

/-! ## The start and the end of an operation -/

/-- A cycle of `RECV` starts with its Header frame in `FB`, and `CNT` and `NRD` clear (R140). -/
theorem Quiet.inv_startCycle (h : Quiet s) (ho : s.op = .recv) (hv : s.cfgValid = true) : Inv s.startCycle :=
  Quiet.inv_of_entry (ph := .hdr) ⟨h.params, h.cs, h.cfg, h.dst⟩ rfl (Or.inr ho) hv rfl (by simp [frameFits, ho])
    (by simp [sendFits, ho]) (by simp [nrdFits]) (Or.inl rfl)

/-- The mode step of `SEND` fixes `LEN` and enters the Header phase (R112, R117). -/
theorem Inv.sendModeStep (h : Inv s) (ho : s.op = .send) (hq : s.seq = .mode) : Inv (sendModeStep s) := by
  obtain ⟨hpar, hcs, hcfg, hdst⟩ := h.quiet (by rw [hq]; rfl)
  obtain ⟨hmsg, -⟩ := h.len_of_send ho
  refine Quiet.inv_of_entry (ph := .hdr) ⟨hpar, hcs, hcfg, hdst⟩ rfl (Or.inl ho) (h.cfgValid (Or.inl ho)) rfl ?_ ?_ ?_ (Or.inl rfl)
  · simp [Machine.sendModeStep, frameFits, ho]
  · simp [Machine.sendModeStep, sendFits, Nat.ble_eq, hmsg]
  · simp [Machine.sendModeStep, nrdFits, ho]

/-- Post-processing keeps the canonical form of `DST`, and goes on to the loop sample (R138, R139). -/
theorem Inv.recvPostStep (h : Inv s) (ho : s.op = .recv) (hq : s.seq = .post) : Inv (recvPostStep s) where
  params := h.params
  seq := by simp [Machine.recvPostStep, seqFits, ho]
  cs := by simp [Machine.recvPostStep, (h.quiet (by rw [hq]; rfl)).cs]
  count := by simp [Machine.recvPostStep, countFits]
  frame := by simp [Machine.recvPostStep, frameFits, ho]
  send := by simp [Machine.recvPostStep, sendFits, ho]
  nrd := by simpa [Machine.recvPostStep, nrdFits, hq] using h.nrd
  cfg := by simpa [Machine.recvPostStep, cfgFits, hq] using h.cfg
  valid := h.valid
  dst := Memory.wf_postProcess _ _ h.dst
  trace := by simpa [Machine.recvPostStep, traceFits, hq, lastEvent] using h.trace

theorem Inv.recvLoopStep (h : Inv s) (ho : s.op = .recv) (hq : s.seq = .loop) : Inv (recvLoopStep s) := by
  have hquiet : Quiet s.sample := h.quiet_sample (by rw [hq]; rfl)
  unfold Machine.recvLoopStep
  split
  · exact hquiet.inv_startCycle ho (h.cfgValid (Or.inr ho))
  · exact Quiet.inv_of_idle ⟨hquiet.params, hquiet.cs, hquiet.cfg, hquiet.dst⟩ rfl rfl

/-- `BUSY` is 0 exactly when no operation is in progress (R26). -/
theorem busy_eq_false_iff : s.busy = false ↔ s.op = .none := by
  cases ho : s.op <;> simp [State.busy, ho]

/-- In a state of the invariant an idle block is at `IDLE` (R37). -/
theorem Inv.seq_of_idle (h : Inv s) (ho : s.op = .none) : s.seq = .idle := by
  have hs := h.seq
  cases hq : s.seq <;> simp_all [seqFits]

theorem Inv.quiet_of_idle (h : Inv s) (hb : s.busy = false) : Quiet s :=
  h.quiet (by rw [h.seq_of_idle (busy_eq_false_iff.mp hb)]; rfl)

theorem Inv.mark (h : Inv s) (r : Reason) : Inv (s.mark r) := h.outside _ _ _ _ _ _ _

theorem Inv.clearPort (h : Inv s) : Inv s.clearPort := h.outside _ _ _ _ _ _ _

theorem Inv.acceptSend (h : Inv s) (r : Request) : Inv (acceptSend r s) := by
  rcases acceptSend_cases r s with ⟨-, e⟩ | ⟨-, -, e⟩ | ⟨-, -, -, e⟩ | ⟨hw, hb, hv, e⟩ <;> rw [e]
  · exact h.mark _
  · exact h.mark _
  · exact h.mark _
  · have hlen : r.msg.length ≤ Config.lenMax := of_decide_eq_true hw
    exact {
      params := h.params, dst := h.dst
      seq := by simp [seqFits]
      cs := by simp [(h.quiet_of_idle hb).cs]
      count := by simp [countFits]
      frame := by simp [frameFits]
      send := by simp [sendFits, Nat.ble_eq, hlen]
      nrd := by simp [nrdFits]
      cfg := by simp [cfgFits, h.legal hv]
      valid := by simp [validFits, hv]
      trace := by simp [traceFits] }

/-- The destination that is lent is in canonical form. -/
theorem wf_lentDst (h : Memory.wf s.dst = true) (r : Request) : Memory.wf (lentDst r s) = true := by
  unfold lentDst
  split
  · exact h
  · exact Memory.wf_ofCells _

theorem Inv.acceptRecv (h : Inv s) (r : Request) : Inv (acceptRecv r s) := by
  rcases acceptRecv_cases r s with ⟨-, e⟩ | ⟨-, -, e⟩ | ⟨hb, hv, e⟩ <;> rw [e]
  · exact h.mark _
  · exact h.mark _
  · exact Quiet.inv_startCycle ⟨h.params, (h.quiet_of_idle hb).cs, h.legal, wf_lentDst h.dst r⟩ rfl hv

/-! ## INIT -/

/-- A step of `INIT`: the transport is not selected and nothing is transferred, so only the configuration is left to be shown. -/
theorem Quiet.inv_of_init (h : Quiet s) (ho : s.op = .init) (hq : s.seq = .clk ∨ ∃ k, s.seq = .cfgw k) (hcfg : cfgFits s = true) : Inv s where
  params := h.params
  seq := by rcases hq with hq | ⟨k, hq⟩ <;> simp [seqFits, ho, hq]
  cs := by simp [h.cs]
  count := by rcases hq with hq | ⟨k, hq⟩ <;> simp [countFits, hq]
  frame := by simp [frameFits, ho]
  send := by simp [sendFits, ho]
  nrd := by simp [nrdFits, ho]
  cfg := hcfg
  valid := by simp [validFits, ho]
  dst := h.dst
  trace := by rcases hq with hq | ⟨k, hq⟩ <;> simp [traceFits, hq]

theorem Inv.acceptInit (h : Inv s) (r : Request) : Inv (acceptInit r s) := by
  rcases acceptInit_cases r s with ⟨-, e⟩ | ⟨-, -, e⟩ | ⟨hb, -, e⟩ <;> rw [e]
  · exact h.mark _
  · exact h.mark _
  · obtain ⟨hpar, hcs, hcfg, hdst⟩ := h.quiet_of_idle hb
    exact Quiet.inv_of_init ⟨hpar, hcs, hcfg, hdst⟩ rfl (Or.inl rfl) (by cases hv : s.cfgValid <;> simp [cfgFits, hv, hcfg])

/-- The clock reading starts the writes with a divider that fits, or gives the request up (R201, R203). -/
theorem clkStep_cases (s : State) :
    (∃ d, divider s.par.divW s.env.clockHz s.hz = .ok d ∧
      clkStep s = { s with env := s.env.popClk, trace := .clk s.env.clockHz :: s.trace, div := d, seq := .cfgw 0 }) ∨
    (∃ r, divider s.par.divW s.env.clockHz s.hz = .error r ∧
      clkStep s = State.abandon { s with env := s.env.popClk, trace := .clk s.env.clockHz :: s.trace } r) := by
  cases hd : divider s.par.divW s.env.clockHz s.hz with
  | ok d => exact Or.inl ⟨d, rfl, by simp [clkStep, hd, State.emit]⟩
  | error r => exact Or.inr ⟨r, rfl, by simp [clkStep, hd, State.emit]⟩

theorem Inv.clkStep (h : Inv s) (ho : s.op = .init) (hq : s.seq = .clk) : Inv (clkStep s) := by
  obtain ⟨hpar, hcs, hcfg, hdst⟩ := h.quiet (by rw [hq]; rfl)
  rcases clkStep_cases s with ⟨d, hd, e⟩ | ⟨r, -, e⟩ <;> rw [e]
  · obtain ⟨-, hfits⟩ := (divider_ok_iff _ _ _ _).mp hd
    refine Quiet.inv_of_init ⟨hpar, hcs, hcfg, hdst⟩ ho (Or.inr ⟨0, rfl⟩) ?_
    cases hv : s.cfgValid <;> simp [cfgFits, hv, hcfg, cfgLegalBelow, Nat.blt_eq, hfits]
  · exact Quiet.inv_of_idle ⟨hpar, hcs, hcfg, hdst⟩ rfl rfl

/-- A write of `INIT` gives its field a legal value: with the fields below it legal, one field more is, and a legal configuration stays legal. -/
theorem cfgLegalBelow_store (k : Fin 8) (hd : s.div < 2 ^ s.par.divW) {c : Cfg} :
    (cfgLegalBelow s.par c k = true → cfgLegalBelow s.par (c.store (cfgWrite s k)) (k + 1) = true) ∧
      (cfgLegal s.par c = true → cfgLegal s.par (c.store (cfgWrite s k)) = true) := by
  fin_cases k <;> simp_all [cfgLegal, cfgLegalBelow, cfgWrite, Cfg.store, Nat.blt_eq]

/-- Before `CFGW(k)` the divider fits its field, and the fields below `k` are legal (R201, R203). -/
theorem Inv.cfgLegalBelow_at_cfgw (h : Inv s) {k : Fin 8} (hq : s.seq = .cfgw k) :
    s.div < 2 ^ s.par.divW ∧ cfgLegalBelow s.par s.cfg k = true := by
  have hcfg := h.cfg
  simp only [cfgFits, hq, Bool.and_eq_true, Nat.blt_eq] at hcfg
  exact hcfg.2

theorem Inv.cfgStep (h : Inv s) (ho : s.op = .init) {k : Fin 8} (hq : s.seq = .cfgw k) : Inv (cfgStep s k) := by
  obtain ⟨hpar, hcs, hcfg, hdst⟩ := h.quiet (by rw [hq]; rfl)
  obtain ⟨hdiv, hbelow⟩ := h.cfgLegalBelow_at_cfgw hq
  obtain ⟨hmore, hstay⟩ := cfgLegalBelow_store k hdiv (c := s.cfg)
  by_cases hk : k = 7
  · subst hk
    exact Quiet.inv_of_idle (s := Machine.cfgStep s 7) ⟨hpar, hcs, fun _ => hmore hbelow, hdst⟩ rfl rfl
  · rw [cfgStep_of_ne_last hk]
    have hkeep : s.cfgValid = true → cfgLegal s.par (s.cfg.store (cfgWrite s k)) = true := fun hv => hstay (hcfg hv)
    have hnext : (k + 1 : Fin 8).val = k.val + 1 := Fin.val_add_one_of_lt (Fin.lt_last_iff_ne_last.mpr hk)
    refine Quiet.inv_of_init ⟨hpar, hcs, hkeep, hdst⟩ ho (Or.inr ⟨k + 1, rfl⟩) ?_
    simp only [cfgFits, State.goto_cfgValid, State.writeCfg_cfgValid, State.goto_seq, State.goto_div, State.writeCfg_div, State.goto_par,
      State.writeCfg_par, State.goto_cfg, State.writeCfg_cfg, hnext, hmore hbelow, Nat.blt_eq.mpr hdiv]
    cases hv : s.cfgValid <;> simp [hkeep, hv]

/-! ## Reset and the host -/

theorem Quiet.inv_resetBlock (hpar : s.par.wf = true) (hdst : Memory.wf s.dst = true) : Inv s.resetBlock :=
  Quiet.inv_of_idle ⟨hpar, rfl, nofun, hdst⟩ rfl rfl

theorem Inv.applyReset (h : Inv s) : Inv s.applyReset := by
  unfold State.applyReset
  split
  · exact Quiet.inv_resetBlock (s := s.scramble) h.params (Memory.wf_ofCells _)
  · exact Quiet.inv_resetBlock h.params h.dst

theorem Inv.hostStep (h : Inv s) (a : Act) (rest : List HostAct) : Inv (s.hostStep a rest) := by
  rcases s.hostStep_cases a rest with ⟨r, -, e⟩ | ⟨r, -, -, e⟩ | ⟨r, -, -, e⟩ | ⟨-, e⟩ <;> rw [e]
  · exact h.outside _ _ _ _ _ _ _
  · exact h.outside _ _ _ _ _ _ _
  · exact h.outside _ _ _ _ _ _ _
  · have hrest : Inv { s with host := rest } := h.outside _ _ _ _ _ _ _
    exact hrest.applyReset

theorem Inv.tick (h : Inv s) : Inv s.tick := h.outside _ _ _ _ _ _ _

/-! ## The rows -/

theorem Inv.hsStep_send (h : Inv s) (ho : s.op = .send) (hq : s.seq = .phase ph .hs) : Inv (s.hsStep (Machine.sendAfter ph)) := by
  rcases s.hsStep_cases (Machine.sendAfter ph) with ⟨hr, e⟩ | ⟨hn, e⟩ <;> rw [e]
  · exact h.sendAfter ho hq hr
  · exact h.sample hq hn

theorem Inv.hsStep_recv (h : Inv s) (ho : s.op = .recv) (hq : s.seq = .phase ph .hs) : Inv (s.hsStep (Machine.recvAfter ph)) := by
  rcases s.hsStep_cases (Machine.recvAfter ph) with ⟨hr, e⟩ | ⟨hn, e⟩ <;> rw [e]
  · exact h.recvAfter ho hq hr
  · exact h.sample hq hn

theorem Inv.of_sendStep (h : Inv s) (ho : s.op = .send) (e : sendStep s = .next t) : Inv t := by
  rcases sendStep_cases e with ⟨hq, rfl⟩ | ⟨ph, hq, -, rfl⟩ | ⟨ph, hq, rfl⟩ | ⟨ph, hq, rfl⟩ | ⟨ph, hq, rfl⟩
  · exact h.sendModeStep ho hq
  · exact h.goto_rel hq
  · exact h.relStep hq
  · exact h.dlyStep hq
  · exact h.hsStep_send ho hq

theorem Inv.of_recvStep (h : Inv s) (ho : s.op = .recv) (e : recvStep s = .next t) : Inv t := by
  rcases recvStep_cases e with ⟨ph, hq, -, rfl⟩ | ⟨ph, hq, rfl⟩ | ⟨ph, hq, rfl⟩ | ⟨ph, hq, rfl⟩ | ⟨hq, rfl⟩ | ⟨hq, rfl⟩
  · exact h.goto_rel hq
  · exact h.relStep hq
  · exact h.dlyStep hq
  · exact h.hsStep_recv ho hq
  · exact h.recvPostStep ho hq
  · exact h.recvLoopStep ho hq

theorem Inv.of_initStep (h : Inv s) (ho : s.op = .init) (e : initStep s = .next t) : Inv t := by
  rcases initStep_cases e with ⟨hq, rfl⟩ | ⟨k, hq, rfl⟩
  · exact h.clkStep ho hq
  · exact h.cfgStep ho hq

/-- The transfer of a frame of as many octets as the phase has keeps the invariant (R113, R114, R132). -/
theorem Inv.of_sendFrame (h : Inv s) {o : Op} {bs : List Octet} (hlen : bs.length = s.octetCount ph)
    (e : sendFrame o ph bs s = .next t) : Inv t := by
  obtain ⟨-, ⟨b, hq, hb, rfl⟩ | ⟨hq, rfl⟩⟩ := sendFrame_cases e
  · obtain ⟨hc, -⟩ := List.getElem?_eq_some_iff.mp hb
    exact h.txStep hq (hlen ▸ hc) b
  · exact h.rxDiscard hq

theorem Inv.of_fillRead (h : Inv s) (ho : s.op = .recv) (hp : ph = .len ∨ ph = .pay) (hq : s.seq = .phase ph .rx)
    (e : fillRead ph s = .next t) : Inv t := by
  rcases fillRead_cases e with ⟨-, rfl⟩ | ⟨v, -, hlen, rfl⟩ | ⟨v, -, hne, -, rfl⟩
  · exact h.rxStall
  · exact h.captureLen ho (hlen ▸ hq) v
  · exact h.rxTake (hp.resolve_left hne ▸ hq) v (Memory.wf_write _ _ h.dst)

/-- Whatever row runs, the invariant is kept. -/
theorem Inv.of_exec (h : Inv s) {i : Instr} (e : exec i s = .next t) : Inv t := by
  cases i with
  | hdrSend => exact h.of_sendFrame rfl e
  | hdrRecv => exact h.of_sendFrame rfl e
  | lenOut l b => exact h.of_sendFrame rfl e
  | lenIn u l b v m =>
    obtain ⟨ho, hq, w, -, rfl⟩ := execLenIn_cases e
    exact h.captureLen ho hq w
  | payOut d =>
    obtain ⟨-, ⟨hq, hc, rfl⟩ | ⟨hq, rfl⟩⟩ := execPayOut_cases e
    · exact h.txStep hq hc d
    · exact h.rxDiscard hq
  | fill =>
    obtain ⟨ho, ph, hp, ⟨hq, hc, rfl⟩ | ⟨hq, hr⟩⟩ := execFill_cases e
    · exact h.txStep hq hc _
    · exact h.of_fillRead ho hp hq hr
  | payIn d =>
    obtain ⟨-, hq, -, rfl⟩ := execPayIn_cases e
    exact h.rxTake hq d (Memory.wf_write _ _ h.dst)
  | init =>
    rcases execInit_cases e with ⟨r, -, rfl⟩ | ⟨-, ho, hs⟩
    · exact h.clearPort.acceptInit r
    · exact h.of_initStep ho hs
  | send =>
    rcases execSend_cases e with ⟨r, -, rfl⟩ | ⟨-, ho, hs⟩
    · exact h.clearPort.acceptSend r
    · exact h.of_sendStep ho hs
  | recv =>
    rcases execRecv_cases e with ⟨r, -, rfl⟩ | ⟨-, ho, hs⟩
    · exact h.clearPort.acceptRecv r
    · exact h.of_recvStep ho hs
  | query =>
    cases e
    exact h.outside _ _ _ _ _ _ _

/-- A step is a row, an act of the host, or nothing (R12), and each keeps the invariant. -/
theorem Inv.of_step (h : Inv s) (e : step s = .next t) : Inv t := by
  obtain ⟨-, ⟨r, -, he⟩ | ⟨a, rest, -, -, rfl⟩ | ⟨-, -, -, rfl⟩ | ⟨i, -, -, -, he⟩⟩ := step_cases e
  · exact h.of_exec he
  · exact h.hostStep a rest
  · exact h.tick
  · exact h.tick.of_exec he

/-! ## The parameters -/

/-- The suggested end sentinel meets its constraint (R8). -/
theorem sentinelOk_suggested : sentinelOk suggestedSentinel = true := by decide

/-- The suggested enable command meets its constraint beside any end sentinel: it has more than three octets, and `C` is no CR or LF (R8). -/
theorem enableOk_suggested (p : Params) (h : p.enableCmd = suggestedEnable) : enableOk p = true := by
  have hno : isEndSentinel p suggestedEnable = false := by
    have htail : (suggestedEnable.drop 3).all isEol = false := by decide
    simp [isEndSentinel, htail]
  simp only [enableOk, h, hno]
  decide

/-- Whatever the parameters are, made legal they meet their constraints (R8; log 1). -/
theorem wf_legalise (p : Params) : (legalise p).wf = true := by
  have hs : sentinelOk (legalise p).endSentinel = true := by
    by_cases h : sentinelOk p.endSentinel = true
    · simp [legalise, h]
    · simp [legalise, h, sentinelOk_suggested]
  have he : enableOk (legalise p) = true := by
    by_cases h : enableOk { p with endSentinel := (legalise p).endSentinel } = true
    · have hcmd : (legalise p).enableCmd = p.enableCmd := if_pos h
      simpa only [enableOk, isEndSentinel, hcmd] using h
    · exact enableOk_suggested _ (if_neg h)
  have hd : 1 ≤ (legalise p).divW := by
    by_cases h : 1 ≤ p.divW <;> simp [legalise, h]
  have hr : rising (legalise p).pinSet = true := by
    by_cases h : rising p.pinSet = true <;> simp [legalise, h, rising]
  simp only [Params.wf, paramsOk, hs, he, hd, hr, decide_true, Bool.and_self]
  rfl

end Sys2Proof

open Sys2Proof Sys2Proof.Machine

/-- Settles O51: `Inv.of_step`, by the case analysis of the step and, for a row, of the instruction. -/
theorem stepKeepsInv : Obligations.StepKeepsInv := by
  unfold Obligations.StepKeepsInv
  intro s t h e
  exact h.of_step e

/-- Settles O50: the block after reset is idle, and its parameters are legal ones. -/
theorem resetSatisfiesInv : Obligations.ResetSatisfiesInv := by
  unfold Obligations.ResetSatisfiesInv
  exact Quiet.inv_of_idle ⟨wf_legalise _, rfl, nofun, rfl⟩ rfl rfl

end

section
/-! The two literal comparisons and the mode table (R161, R166): what the comparisons mean, that legal parameters exclude both at once, and
`ModeStep` on the three kinds of message. -/

namespace Sys2Proof.Machine

variable {p : Params} {m : List Octet}

/-- The terminator octets are CR and LF (R9). -/
theorem isEol_iff {b : Octet} : isEol b = true ↔ b = 0x0D ∨ b = 0x0A := by
  simp [isEol, Config.cr, Config.lf]

/-- The end sentinel has three octets (R8). -/
theorem length_of_sentinelOk {l : List Octet} (h : sentinelOk l = true) : l.length = 3 := by
  simp only [sentinelOk, Bool.and_eq_true, beq_iff_eq] at h
  exact h.1

/-- The message is an end sentinel exactly when it is `END_SENTINEL` followed by terminator octets only (R161; D6). -/
theorem isEndSentinel_iff (hs : sentinelOk p.endSentinel = true) :
    isEndSentinel p m = true ↔ ∃ tail, m = p.endSentinel ++ tail ∧ ∀ b ∈ tail, b = 0x0D ∨ b = 0x0A := by
  have hlen : p.endSentinel.length = 3 := length_of_sentinelOk hs
  simp only [isEndSentinel, Bool.and_eq_true, decide_eq_true_eq, beq_iff_eq, List.all_eq_true, isEol_iff]
  constructor
  · rintro ⟨⟨-, htake⟩, htail⟩
    exact ⟨m.drop 3, by rw [← htake, List.take_append_drop], htail⟩
  · rintro ⟨tail, rfl, htail⟩
    refine ⟨⟨by simp [hlen], List.take_left' hlen⟩, ?_⟩
    rw [List.drop_left' hlen]
    exact htail

/-- Under legal parameters the enable command is no end sentinel (R161; D9). -/
theorem not_endSentinel_of_enable (h : p.wf = true) (he : isEnable p m = true) : isEndSentinel p m = false := by
  rw [isEnable_iff.mp he]
  exact (enableCmd_of_wf h).2.2

end Sys2Proof.Machine

open Sys2Proof Sys2Proof.Machine

/-- Settles O9: the comparisons by their characterisations, the exclusion by the constraint on `ENABLE_CMD`. -/
theorem comparisonsMeanWhatTheySay : Obligations.ComparisonsMeanWhatTheySay := by
  unfold Obligations.ComparisonsMeanWhatTheySay
  refine ⟨fun p m => isEnable_iff, fun p m hs => isEndSentinel_iff hs, fun p m hwf h => ?_⟩
  have hno := not_endSentinel_of_enable hwf h.1
  rw [h.2] at hno
  cases hno

/-- Settles O10: each kind of message fixes both comparisons, and the table is `ModeStep` evaluated at the three modes. -/
theorem modeTable : Obligations.ModeTable := by
  unfold Obligations.ModeTable
  intro p m hwf
  refine ⟨fun he => ?_, fun hs => ?_, fun he hs => ?_⟩
  · have hs := not_endSentinel_of_enable hwf he
    simp [modeStep, leaveEnding, modeMove, he, hs, sendLen_of_not_endSentinel hs]
  · have he : isEnable p m = false := by
      by_contra hne
      have hno := not_endSentinel_of_enable hwf (by simpa using hne)
      rw [hs] at hno
      cases hno
    simp [modeStep, leaveEnding, modeMove, he, hs, sendLen_of_endSentinel hs]
  · simp [modeStep, leaveEnding, modeMove, he, hs, sendLen_of_not_endSentinel hs]

end

section
/-! The rows at their own steps (R113 to R115, R132 to R136, R175, R186): what each row answers when the transport is ready. -/

namespace Sys2Proof.Machine

variable {s : State} {o : Op} {ph : Phase}

/-! ## The master sends -/

/-- With a free transmit slot a TX step sends its octet (R186). -/
theorem State.txStep_of_ready (h : s.env.txReady = true) (b : Octet) :
    s.txStep ph b = { s with env := s.env.popTx, trace := .tx b :: s.trace, csAct := true, seq := .phase ph .rx } := by
  rcases s.txStep_cases ph b with ⟨-, e⟩ | ⟨hn, -⟩
  · exact e
  · rw [h] at hn; cases hn

/-- At the TX step of its phase a frame sends the octet at `CNT` (R113, R114, R132). -/
theorem sendFrame_of_getElem? {bs : List Octet} {b : Octet} (ho : s.op = o) (hq : s.seq = .phase ph .tx)
    (hb : bs[s.cnt.toNat]? = some b) : sendFrame o ph bs s = .next (s.txStep ph b) := by
  simp [sendFrame, ho, hq, hb]

/-- At its TX step, with octets left, `PAY_OUT` sends its octet (R115). -/
theorem execPayOut_at_tx (ho : s.op = .send) (hq : s.seq = .phase .pay .tx) (hc : s.cnt.toNat < s.octetCount .pay) (d : Octet) :
    execPayOut d s = .next (s.txStep .pay d) := by
  simp [execPayOut, ho, hq, hc]

/-- At its RX step `PAY_OUT` drops the octet that comes back (R175). -/
theorem execPayOut_at_rx (ho : s.op = .send) (hq : s.seq = .phase .pay .rx) (d : Octet) :
    execPayOut d s = .next (s.rxDiscard .pay) := by
  simp [execPayOut, ho, hq]

/-- At a TX step of the Length or Payload phase, with octets left, `FILL` sends filler (R89, R133, R136). -/
theorem execFill_at_tx (ho : s.op = .recv) (hp : ph = .len ∨ ph = .pay) (hq : s.seq = .phase ph .tx)
    (hc : s.cnt.toNat < s.octetCount ph) : execFill s = .next (s.txStep ph Config.filler) := by
  rcases hp with rfl | rfl <;> simp [execFill, fillPhase, ho, hq, hc]

/-- At an RX step of the Length or Payload phase, `FILL` is the read half of its exchange (R89). -/
theorem execFill_at_rx (ho : s.op = .recv) (hp : ph = .len ∨ ph = .pay) (hq : s.seq = .phase ph .rx) : execFill s = fillRead ph s := by
  rcases hp with rfl | rfl <;> simp [execFill, fillPhase, ho, hq]

/-- In `SEND` the octet count of the Payload phase is `LEN` (R186). -/
theorem State.octetCount_pay_of_send (ho : s.op = .send) : s.octetCount .pay = s.len.toNat := by
  simp [State.octetCount, ho]

/-! ## An octet is valid -/

/-- A valid octet is dropped by a discarding RX step (R175). -/
theorem State.rxDiscard_of_some {v : Octet} (h : s.env.rxAnswer = some v) : s.rxDiscard ph = s.rxTake ph v := by
  simp [State.rxDiscard, h]

/-- At its step `LEN_IN` captures octet `CNT` of its frame (R133). -/
theorem execLenIn_at_rx {u : BitVec 1} {l : BitVec 7} {h v m b : Octet} (ho : s.op = .recv) (hq : s.seq = .phase .len .rx)
    (hb : (encode (.lenIn u l h v m))[s.cnt.toNat]? = some b) : execLenIn u l h v m s = .next (s.captureLen b) := by
  simp [execLenIn, ho, hq, hb]

/-- Below `MAXL` a payload octet is stored at `CNT` (R136). -/
theorem State.capturePay_of_lt (hc : s.cnt.toNat < s.maxl.toNat) (v : Octet) :
    s.capturePay v = .next (State.rxTake { s with dst := s.dst.write s.cnt.toNat v } .pay v) := by
  rcases s.capturePay_cases v with ⟨-, e⟩ | ⟨hge, -⟩
  · exact e
  · omega

/-- At its step `PAY_IN` captures its octet (R136). -/
theorem execPayIn_at_rx (ho : s.op = .recv) (hq : s.seq = .phase .pay .rx) (d : Octet) : execPayIn d s = s.capturePay d := by
  simp [execPayIn, ho, hq]

end Sys2Proof.Machine

open Sys2Proof Sys2Proof.Machine

/-- Settles O15: the literal octets are the encodings of the rows, and each row takes the TX step of its phase. -/
theorem masterOctetIsSent : Obligations.MasterOctetIsSent := by
  unfold Obligations.MasterOctetIsSent
  intro s b hr
  refine ⟨fun ho hq hb => ?_, fun ho hq hb => ?_, fun l h ho hq hb => ?_, fun ho hq hc => ?_⟩ <;>
    rw [← State.txStep_of_ready hr]
  · exact sendFrame_of_getElem? (bs := encode .hdrSend) ho hq hb
  · exact sendFrame_of_getElem? (bs := encode .hdrRecv) ho hq hb
  · rw [BitVec.ofNat_toNat] at hb
    exact sendFrame_of_getElem? (bs := encode (.lenOut l h)) ho hq hb
  · exact execPayOut_at_tx ho hq (by rwa [State.octetCount_pay_of_send ho]) b

/-- Settles O16: `FILL` takes the TX step of its phase with the filler octet. -/
theorem fillerIsZero : Obligations.FillerIsZero := by
  unfold Obligations.FillerIsZero
  intro s ho hr
  refine ⟨fun hq hc => ?_, fun hq hc => ?_⟩ <;> rw [← State.txStep_of_ready hr]
  · exact execFill_at_tx ho (Or.inl rfl) hq hc
  · exact execFill_at_tx ho (Or.inr rfl) hq (by rwa [State.octetCount_pay_of_recv ho])

/-- Settles O17: each of the four rows takes the discarding RX step of its phase. -/
theorem returnedOctetIsDropped : Obligations.ReturnedOctetIsDropped := by
  unfold Obligations.ReturnedOctetIsDropped
  intro s v hv
  have taken (ph : Phase) : s.rxDiscard ph =
      { s with env := s.env.popRx, trace := .rx v :: s.trace, cnt := s.cnt + 1, seq := .phase ph .tx } := State.rxDiscard_of_some hv
  refine ⟨fun ho hq => ?_, fun ho hq => ?_, fun l h ho hq => ?_, fun d ho hq => ?_⟩ <;> rw [← taken]
  · exact sendFrame_at_rx ho hq
  · exact sendFrame_at_rx ho hq
  · exact sendFrame_at_rx ho hq
  · exact execPayOut_at_rx ho hq d

/-- Settles O19: the four values of `CNT` select the four octets of the frame, and only the fourth decodes `LEN`. -/
theorem lengthOctetIsCaptured : Obligations.LengthOctetIsCaptured := by
  unfold Obligations.LengthOctetIsCaptured
  intro s u l h v m ho hq
  have captured (b : Octet) (hb : (encode (.lenIn u l h v m))[s.cnt.toNat]? = some b) :
      exec (.lenIn u l h v m) s = .next (s.captureLen b) := execLenIn_at_rx ho hq hb
  refine ⟨fun hc => ?_, fun hc => ?_, fun hc => ?_, fun hc => ?_⟩
  all_goals
    rw [captured _ (by rw [hc]; rfl)]
    simp [State.captureLen, State.rxTake, FrameBuf.set, hc]

/-- Settles O20: the store is one write of the destination, and a read after it is one of the two rules of the memory. -/
theorem payloadOctetIsStored : Obligations.PayloadOctetIsStored := by
  unfold Obligations.PayloadOctetIsStored
  intro s d hwf ho hq hc
  have stored : exec (.payIn d) s = .next (State.rxTake { s with dst := s.dst.write s.cnt.toNat d } .pay d) := by
    rw [← State.capturePay_of_lt hc]
    exact execPayIn_at_rx ho hq d
  exact ⟨_, stored, rfl, Memory.read_write_same _ _ hwf, fun j hj => Memory.read_write_other _ (Ne.symm hj)⟩

end

section
/-! The steps of an operation that move no octet: the boundary of a phase (R176, R186), the loop sample and post-processing of `RECV` (R137 to
R139), and acceptance (R111, R131, R203, R205). -/

namespace Sys2Proof.Machine

variable {s : State} {ph : Phase} {r : Request}

/-! ## One step of an operation -/

/-- With no request on the port, `SEND` takes its own step. -/
theorem exec_send_eq (hp : s.port = none) (ho : s.op = .send) : exec .send s = sendStep s := by
  simp [exec, execSend, hp, ho]

/-- With no request on the port, `RECV` takes its own step. -/
theorem exec_recv_eq (hp : s.port = none) (ho : s.op = .recv) : exec .recv s = recvStep s := by
  simp [exec, execRecv, hp, ho]

/-- With no request on the port, `INIT` takes its own step. -/
theorem exec_init_eq (hp : s.port = none) (ho : s.op = .init) : exec .init s = initStep s := by
  simp [exec, execInit, hp, ho]

/-- When the octets of a phase are through, `SEND` goes to its boundary (R186). -/
theorem sendStep_at_end (hq : s.seq = .phase ph .tx) (hc : s.octetCount ph ≤ s.cnt.toNat) :
    sendStep s = .next (s.goto (.phase ph .rel)) := by
  simp [sendStep, hq, Nat.not_lt.mpr hc]

/-- When the octets of a phase are through, `RECV` goes to its boundary (R186). -/
theorem recvStep_at_end (hq : s.seq = .phase ph .tx) (hc : s.octetCount ph ≤ s.cnt.toNat) :
    recvStep s = .next (s.goto (.phase ph .rel)) := by
  simp [recvStep, hq, Nat.not_lt.mpr hc]

theorem sendStep_at_rel (hq : s.seq = .phase ph .rel) : sendStep s = .next (s.relStep ph) := by simp [sendStep, hq]

theorem recvStep_at_rel (hq : s.seq = .phase ph .rel) : recvStep s = .next (s.relStep ph) := by simp [recvStep, hq]

theorem sendStep_at_dly (hq : s.seq = .phase ph .dly) : sendStep s = .next (s.dlyStep ph) := by simp [sendStep, hq]

theorem recvStep_at_dly (hq : s.seq = .phase ph .dly) : recvStep s = .next (s.dlyStep ph) := by simp [recvStep, hq]

/-- At `POST`, `RECV` does its post-processing (R137, R138). -/
theorem exec_recv_at_post (hp : s.port = none) (ho : s.op = .recv) (hq : s.seq = .post) :
    exec .recv s = .next (recvPostStep s) := by
  simp [exec_recv_eq hp ho, recvStep, hq]

/-- At `LOOP`, `RECV` takes its loop sample (R139). -/
theorem exec_recv_at_loop (hp : s.port = none) (ho : s.op = .recv) (hq : s.seq = .loop) :
    exec .recv s = .next (recvLoopStep s) := by
  simp [exec_recv_eq hp ho, recvStep, hq]

/-! ## Frames in the buffer -/

/-- The buffer of four octets holds just these. -/
theorem FrameBuf.octets_ofOctets {bs : List Octet} (h : bs.length = 4) : (FrameBuf.ofOctets bs).octets = bs := by
  match bs, h with
  | [b0, b1, b2, b3], _ => rfl

/-! ## Acceptance -/

/-- With a request on the port, `SEND` takes it or turns it away. -/
theorem exec_send_of_request (hp : s.port = some r) : exec .send s = .next (acceptSend r s.clearPort) := by
  simp [exec, execSend, hp]

/-- With a request on the port, `RECV` takes it or turns it away. -/
theorem exec_recv_of_request (hp : s.port = some r) : exec .recv s = .next (acceptRecv r s.clearPort) := by
  simp [exec, execRecv, hp]

/-- With a request on the port, `INIT` takes it or turns it away. -/
theorem exec_init_of_request (hp : s.port = some r) : exec .init s = .next (acceptInit r s.clearPort) := by
  simp [exec, execInit, hp]

/-- The block is busy while an operation is in progress (R26). -/
theorem busy_iff : s.busy = true ↔ s.op ≠ .none := by
  cases ho : s.op <;> simp [State.busy, ho]

/-- A request fits its port when its message has at most 32767 octets (R51). -/
theorem Request.wf_iff : r.wf = true ↔ r.msg.length ≤ 32767 := decide_eq_true_iff

/-! ## Post-processing -/

/-- Every index of the destination after post-processing (R137, R138). -/
theorem read_postProcess {m : Memory} (h : Memory.wf m = true) (len : Len15) (maxl : BitVec Config.maxlW) (j : Nat) :
    (postProcess m len maxl).read j =
      if len.toNat < maxl.toNat ∧ 4 ≤ len.toNat ∧ j < len.toNat - 2 ∧ (m.read j = 0x0D ∨ m.read j = 0x0A) then 0x20
      else if len.toNat < maxl.toNat ∧ j = len.toNat then 0x00
      else m.read j := by
  by_cases hlt : len.toNat < maxl.toNat
  · rw [postProcess, if_pos hlt, Memory.read_normalise _ _ (Memory.wf_write _ _ h)]
    by_cases hj : j = len.toNat
    · have hout : ¬ j < normCount len maxl := by unfold normCount Config.normTail; split <;> omega
      have hnot : ¬ j < len.toNat - 2 := by omega
      subst hj
      simp only [hout, hnot, false_and, and_false, if_false, hlt, true_and, if_true]
      exact Memory.read_write_same _ _ h
    · have hread : (m.write len.toNat Config.nul).read j = m.read j := Memory.read_write_other _ (Ne.symm hj)
      have hcount : j < normCount len maxl ↔ 4 ≤ len.toNat ∧ j < len.toNat - 2 := by
        unfold normCount Config.normMin Config.normTail
        split <;> omega
      simp only [hread, hcount, isEol_iff, hlt, hj, true_and, and_false, if_false, and_assoc]
      rfl
  · simp only [postProcess, hlt, if_false, false_and]

/-- Every index of the destination after the post-processing step. -/
theorem read_recvPostStep (h : Memory.wf s.dst = true) (j : Nat) :
    (recvPostStep s).dst.read j =
      if s.len.toNat < s.maxl.toNat ∧ 4 ≤ s.len.toNat ∧ j < s.len.toNat - 2 ∧ (s.dst.read j = 0x0D ∨ s.dst.read j = 0x0A) then 0x20
      else if s.len.toNat < s.maxl.toNat ∧ j = s.len.toNat then 0x00
      else s.dst.read j :=
  read_postProcess h s.len s.maxl j

end Sys2Proof.Machine

open Sys2Proof Sys2Proof.Machine

/-- Settles O21: both operations take the same two steps at a boundary. -/
theorem boundaryReleasesThenWaits : Obligations.BoundaryReleasesThenWaits := by
  unfold Obligations.BoundaryReleasesThenWaits
  intro s ph hp
  refine ⟨fun hq => ⟨fun ho => ?_, fun ho => ?_⟩, fun hq => ⟨fun ho => ?_, fun ho => ?_⟩⟩
  · rw [exec_send_eq hp ho, sendStep_at_rel hq]; rfl
  · rw [exec_recv_eq hp ho, recvStep_at_rel hq]; rfl
  · rw [exec_send_eq hp ho, sendStep_at_dly hq]; rfl
  · rw [exec_recv_eq hp ho, recvStep_at_dly hq]; rfl

/-- Settles O22: with `CNT` at the octet count no octet is left, so both operations leave the exchange. -/
theorem everyPhaseHasItsBoundary : Obligations.EveryPhaseHasItsBoundary := by
  unfold Obligations.EveryPhaseHasItsBoundary
  intro s ph hp hq hc
  refine ⟨fun ho => ?_, fun ho => ?_⟩
  · rw [exec_send_eq hp ho, sendStep_at_end hq (Nat.le_of_eq hc.symm)]; rfl
  · rw [exec_recv_eq hp ho, recvStep_at_end hq (Nat.le_of_eq hc.symm)]; rfl

/-- Settles O24: the Ready sample goes on with `sendAfter` of the phase. -/
theorem readySampleGoesOnInSend : Obligations.ReadySampleGoesOnInSend := by
  unfold Obligations.ReadySampleGoesOnInSend
  intro s hp ho hr
  have goesOn {ph : Phase} (hq : s.seq = .phase ph .hs) : exec .send s = .next (sendAfter ph { s.sample with cnt := 0 }) := by
    rw [exec_send_at_hs hp ho hq, State.hsStep_of_ready hr]
  have hsample : s.sample = { s with env := s.env.popHs, trace := .hs true :: s.trace } := by
    simp [State.sample, State.emit, hr]
  refine ⟨fun hq => ⟨FrameBuf.ofInstr (lengthFrame s.len), FrameBuf.octets_ofOctets rfl, ?_⟩, fun hq => ?_, fun hq => ?_⟩ <;>
    rw [goesOn hq, hsample] <;> rfl

/-- Settles O25: the Ready sample goes on with `recvAfter` of the phase; the payload count is the lesser of the two. -/
theorem readySampleGoesOnInRecv : Obligations.ReadySampleGoesOnInRecv := by
  unfold Obligations.ReadySampleGoesOnInRecv
  intro s hp ho hr
  have goesOn {ph : Phase} (hq : s.seq = .phase ph .hs) : exec .recv s = .next (recvAfter ph { s.sample with cnt := 0 }) := by
    rw [exec_recv_at_hs hp ho hq, State.hsStep_of_ready hr]
  have hsample : s.sample = { s with env := s.env.popHs, trace := .hs true :: s.trace } := by
    simp [State.sample, State.emit, hr]
  refine ⟨fun hq => ?_, fun hq => ⟨payloadCount s.len s.maxl, payloadCount_toNat _ _, ?_⟩, fun hq => ?_⟩ <;>
    rw [goesOn hq, hsample] <;> rfl

/-- Settles O35: the loop sample starts a cycle or completes. -/
theorem loopSampleDecides : Obligations.LoopSampleDecides := by
  unfold Obligations.LoopSampleDecides
  intro s hp ho hq
  refine ⟨fun hr => ?_, fun hn => ?_⟩
  · rw [exec_recv_at_loop hp ho hq]
    simp [recvLoopStep, hr, State.sample, State.emit, State.startCycle, State.enterHeader, FrameBuf.ofInstr, FrameBuf.ofOctets, encode,
      Config.opcRecv, Config.reserved]
  · rw [exec_recv_at_loop hp ho hq]
    simp [recvLoopStep, hn, State.sample, State.emit, State.complete]

/-- Settles O27: the four outcomes of acceptance. -/
theorem sendIsTakenOrTurnedAway : Obligations.SendIsTakenOrTurnedAway := by
  unfold Obligations.SendIsTakenOrTurnedAway
  intro s r hp
  rw [exec_send_of_request hp]
  have hw : r.wf = decide (r.msg.length ≤ 32767) := rfl
  refine ⟨fun hm ho hv => ?_, fun hm ho => ?_, fun hm ho hv => ?_, fun hm => ?_⟩
  · simp [acceptSend, hw, hm, State.busy, ho, hv, State.clearPort]
  · simp [acceptSend, hw, hm, State.busy, ho, State.clearPort, State.mark]
  · simp [acceptSend, hw, hm, State.busy, ho, hv, State.clearPort, State.mark]
  · simp [acceptSend, hw, hm, State.clearPort, State.mark]

/-- Settles O28: the outcomes of acceptance, the taken one with either way of lending `DST`. -/
theorem recvIsTakenOrTurnedAway : Obligations.RecvIsTakenOrTurnedAway := by
  unfold Obligations.RecvIsTakenOrTurnedAway
  intro s r hp
  rw [exec_recv_of_request hp]
  have taken (ho : s.op = .none) (hv : s.cfgValid = true) : acceptRecv r s.clearPort =
      State.startCycle { s.clearPort with op := .recv, maxl := r.maxLen, dst := lentDst r s } := by
    simp [acceptRecv, State.busy, ho, hv, lentDst]
  refine ⟨fun ho hv hd => ?_, fun cells ho hv hd => ?_, fun ho => ?_, fun ho hv => ?_⟩
  · rw [taken ho hv, lentDst, hd]; rfl
  · rw [taken ho hv, lentDst, hd]; rfl
  · simp [acceptRecv, State.busy, ho, State.clearPort, State.mark]
  · simp [acceptRecv, State.busy, ho, hv, State.clearPort, State.mark]

/-- Settles O29: the three outcomes of acceptance. -/
theorem initIsTakenOrTurnedAway : Obligations.InitIsTakenOrTurnedAway := by
  unfold Obligations.InitIsTakenOrTurnedAway
  intro s r hp
  rw [exec_init_of_request hp]
  refine ⟨fun ho hz => ?_, fun ho => ?_, fun ho hz => ?_⟩
  · simp [acceptInit, State.busy, ho, hz, State.clearPort]
  · simp [acceptInit, State.busy, ho, State.clearPort, State.mark]
  · simp [acceptInit, State.busy, ho, hz, State.clearPort, State.mark]

/-- Settles O30: `QUERY` is one assignment to the result port, and `tmode_q` the code of the mode. -/
theorem queryReturnsTheMode : Obligations.QueryReturnsTheMode := by
  unfold Obligations.QueryReturnsTheMode
  intro s
  refine ⟨rfl, fun h => ?_, fun h => ?_, fun h => ?_⟩ <;> simp [State.tmodeQ, h, TMode.code]

/-- Settles O31: the terminator's index is past the octets that normalisation covers. -/
theorem terminatorIsWritten : Obligations.TerminatorIsWritten := by
  unfold Obligations.TerminatorIsWritten
  intro s hwf hp ho hq
  refine ⟨recvPostStep s, exec_recv_at_post hp ho hq, rfl, fun hlt => ?_, fun hge => ⟨?_, fun hinv => ?_⟩⟩
  · have hread := read_recvPostStep hwf s.len.toNat
    have hnot : ¬ s.len.toNat < s.len.toNat - 2 := by omega
    simpa [hlt, hnot] using hread
  · simp [recvPostStep, postProcess, Nat.not_lt.mpr hge]
  · obtain ⟨-, -, hnrd, -⟩ := nrdFits_recv hinv.nrd ho
    rw [hnrd (Or.inr (Or.inl hq)), payloadCount_toNat]
    exact Nat.min_eq_right hge

/-- Settles O32: the equation of the step, and `read_recvPostStep`. -/
theorem normalisationAndFrameOfPost : Obligations.NormalisationAndFrameOfPost := by
  unfold Obligations.NormalisationAndFrameOfPost
  intro s hwf hp ho hq
  exact ⟨recvPostStep s, exec_recv_at_post hp ho hq, rfl, read_recvPostStep hwf⟩

/-- Settles O33: `read_recvPostStep` at `LEN = 0`, where nothing is normalised. -/
theorem lengthZeroTerminatesAtZero : Obligations.LengthZeroTerminatesAtZero := by
  unfold Obligations.LengthZeroTerminatesAtZero
  intro s hwf hp ho hq hlen hmax
  have hzero : s.len.toNat = 0 := by rw [hlen]; rfl
  have hlt : 0 < s.maxl.toNat := hmax
  have hread (j : Nat) : (recvPostStep s).dst.read j = if j = 0 then 0x00 else s.dst.read j := by
    simpa [hzero, hlt] using read_recvPostStep hwf j
  refine ⟨recvPostStep s, exec_recv_at_post hp ho hq, ?_, fun j hj => ?_, fun hinv => ?_⟩
  · simp [hread]
  · simp [hread, hj]
  · obtain ⟨hle, -⟩ := nrdFits_recv hinv.nrd ho
    omega

/-- Settles O34: `read_recvPostStep` at `LEN = 10`, where the first eight indices are covered. -/
theorem lengthTenIsNormalisedBelowEight : Obligations.LengthTenIsNormalisedBelowEight := by
  unfold Obligations.LengthTenIsNormalisedBelowEight
  intro s hwf hp ho hq hlen hmax
  have hten : s.len.toNat = 10 := by rw [hlen]; rfl
  have hread (j : Nat) : (recvPostStep s).dst.read j =
      if j < 8 ∧ (s.dst.read j = 0x0D ∨ s.dst.read j = 0x0A) then 0x20 else if j = 10 then 0x00 else s.dst.read j := by
    simpa [hten, hmax] using read_recvPostStep hwf j
  refine ⟨recvPostStep s, exec_recv_at_post hp ho hq, fun j hj => ?_, ?_, ?_, ?_⟩
  · have hne : j ≠ 10 := by omega
    simp [hread, hj, hne]
  · simp [hread]
  · simp [hread]
  · simp [hread]

end

section
/-! `INIT` from the clock reading to its end (R196, R201 to R203). -/

namespace Sys2Proof.Machine

variable {s t : State} {d : Nat} {k : Fin 8} {q : Seq}

/-! ## The clock reading -/

/-- At `CLK`, `INIT` reads the clock (R201). -/
theorem exec_init_at_clk (hp : s.port = none) (ho : s.op = .init) (hq : s.seq = .clk) : exec .init s = .next (clkStep s) := by
  simp [exec_init_eq hp ho, initStep, hq]

/-- A quotient of zero is no divider (R203). -/
theorem divider_eq_badClock {w f hz : Nat} (h : clockQuotient f hz = 0) : divider w f hz = .error .badClock := by
  simp [divider, h]

/-- A divider that does not fit its field is none (R203). -/
theorem divider_eq_divRange {w f hz : Nat} (h : clockQuotient f hz = d + 1) (hd : 2 ^ w ≤ d) :
    divider w f hz = .error .divRange := by
  simp [divider, h, Nat.not_lt.mpr hd]

/-- With a divider the writes start (R201). -/
theorem clkStep_of_ok (h : divider s.par.divW s.env.clockHz s.hz = .ok d) :
    clkStep s = { s with env := s.env.popClk, trace := .clk s.env.clockHz :: s.trace, div := d, seq := .cfgw 0 } := by
  simp [clkStep, h, State.emit]

/-- With none the request is given up after the event (R203). -/
theorem clkStep_of_error {r : Reason} (h : divider s.par.divW s.env.clockHz s.hz = .error r) :
    clkStep s = { s with env := s.env.popClk, trace := .clk s.env.clockHz :: s.trace, marks := r :: s.marks, op := .none, seq := .idle } := by
  simp [clkStep, h, State.emit, State.abandon, State.mark]

/-! ## The nine steps -/

/-- `INIT` is at a step of its own, with nothing asked of the block. -/
structure AtInit (q : Seq) (s : State) : Prop where
  receives : s.par.supportsReceive = true
  port : s.port = none
  host : s.host = []
  op : s.op = .init
  seq : s.seq = q

/-- The step of the machine is then the step of `INIT`. -/
theorem AtInit.step_eq (h : AtInit q s) : step s = exec .init s :=
  step_eq_exec h.receives h.port h.host (by simp [engineFetch, h.op])

theorem AtInit.step_clk (h : AtInit .clk s) : step s = .next (clkStep s) :=
  h.step_eq.trans (exec_init_at_clk h.port h.op h.seq)

theorem AtInit.step_cfgw (h : AtInit (.cfgw k) s) : step s = .next (cfgStep s k) :=
  h.step_eq.trans (exec_init_at_cfgw h.port h.op h.seq)

theorem AtInit.clkStep_of_ok (h : AtInit .clk s) (hd : divider s.par.divW s.env.clockHz s.hz = .ok d) :
    AtInit (.cfgw 0) (clkStep s) := by
  rw [Machine.clkStep_of_ok hd]
  exact ⟨h.receives, h.port, h.host, h.op, rfl⟩

/-- `s` at `CFGW(k)`, with what the writes so far made of the configuration and the trace. -/
def State.writing (s : State) (k : Fin 8) (c : Cfg) (tr : List Event) : State := { s with cfg := c, trace := tr, seq := .cfgw k }

theorem AtInit.writing (h : AtInit q s) (k : Fin 8) (c : Cfg) (tr : List Event) : AtInit (.cfgw k) (s.writing k c tr) :=
  ⟨h.receives, h.port, h.host, h.op, rfl⟩

/-- Every write but the eighth stores its field and leaves `INIT` at the next one (R201). -/
theorem AtInit.run_write (h : AtInit q s) {n : Nat} {c : Cfg} {tr : List Event} (hk : k ≠ 7) :
    Host.Core.run Sys2Proof.core (n + 1) (s.writing k c tr) =
      Host.Core.run Sys2Proof.core n (s.writing (k + 1) (c.store (cfgWrite s k)) (.cfg (cfgWrite s k) :: tr)) := by
  rw [run_succ_of_step (h.writing k c tr).step_cfgw, cfgStep_of_ne_last hk]
  rfl

/-- The eighth write completes `INIT` (R202). -/
theorem AtInit.run_last_write (h : AtInit q s) {c : Cfg} {tr : List Event} :
    Host.Core.run Sys2Proof.core 1 (s.writing 7 c tr) =
      .next { s with op := .none, seq := .idle, cfgValid := true, ret := some .initDone, cfg := c.store (.pinsEn s.par.pinSet)
                     trace := .cfg (.pinsEn s.par.pinSet) :: tr } := by
  rw [run_succ_of_step (h.writing 7 c tr).step_cfgw]
  rfl

/-- The eight writes in a row store the eight fields, complete `INIT`, and record their events (R201, R202). -/
theorem AtInit.run_writes (h : AtInit (.cfgw 0) s) :
    Host.Core.run Sys2Proof.core 8 s = .next { s with
      op := .none, seq := .idle, cfgValid := true, ret := some .initDone
      cfg := { fmtBits := 8, fmtMsbFirst := true, fmtLines := 1, div := s.div, csIdle := s.par.csIdle, csMode := .auto
               ssSel := s.par.ssIndex, pinsEn := s.par.pinSet }
      trace := [.cfg (.pinsEn s.par.pinSet), .cfg (.ssSel s.par.ssIndex), .cfg (.csMode .auto), .cfg (.csIdle s.par.csIdle),
                .cfg (.div s.div), .cfg (.fmtLines 1), .cfg (.fmtMsbFirst true), .cfg (.fmtBits 8)] ++ s.trace } := by
  have hstart : s = s.writing 0 s.cfg s.trace := by rw [State.writing, ← h.seq]
  conv_lhs => rw [hstart]
  rw [h.run_write (by decide), h.run_write (by decide), h.run_write (by decide), h.run_write (by decide),
    h.run_write (by decide), h.run_write (by decide), h.run_write (by decide)]
  exact h.run_last_write

end Sys2Proof.Machine

open Sys2Proof Sys2Proof.Machine

/-- Settles O36: the three cases of the divider. -/
theorem dividerIsComputed : Obligations.DividerIsComputed := by
  unfold Obligations.DividerIsComputed
  intro s f hp ho hq _ hf
  subst hf
  rw [exec_init_at_clk hp ho hq]
  refine ⟨fun d hquot hfit => ?_, fun hzero => ?_, fun d hquot hrange => ?_⟩
  · rw [clkStep_of_ok ((divider_ok_iff _ _ _ _).mpr ⟨hquot, hfit⟩)]
  · rw [clkStep_of_error (divider_eq_badClock hzero)]
  · rw [clkStep_of_error (divider_eq_divRange hquot hrange)]

/-- Settles O38: the clock reading, then the eight writes. -/
theorem initRunsToCompletion : Obligations.InitRunsToCompletion := by
  unfold Obligations.InitRunsToCompletion
  intro s d hrx hp hh ho hq hquot hfit
  have hclk : AtInit .clk s := ⟨hrx, hp, hh, ho, hq⟩
  have hdiv : divider s.par.divW s.env.clockHz s.hz = .ok d := (divider_ok_iff _ _ _ _).mpr ⟨hquot, hfit⟩
  rw [run_succ_of_step hclk.step_clk, (hclk.clkStep_of_ok hdiv).run_writes, clkStep_of_ok hdiv]
  rfl

end

section
/-! Where a row stops (log 10): at any step but its own, and at a store at or above `MAXL`. -/

namespace Sys2Proof.Machine

variable {s : State} {o : Op} {ph : Phase}

/-- A frame out of its operation or phase, or past its last octet, is no step. -/
theorem sendFrame_fault {bs : List Octet} (h : s.op ≠ o ∨ (s.seq ≠ .phase ph .tx ∧ s.seq ≠ .phase ph .rx) ∨
    (s.seq = .phase ph .tx ∧ bs.length ≤ s.cnt.toNat)) : sendFrame o ph bs s = .fault .outOfPhase := by
  rcases h with h | ⟨htx, hrx⟩ | ⟨hq, hc⟩
  · simp [sendFrame, h]
  · simp [sendFrame, htx, hrx]
  · simp [sendFrame, hq, List.getElem?_eq_none hc]

/-- `PAY_OUT` out of its operation or phase, or past the last octet, is no step. -/
theorem execPayOut_fault {d : Octet} (h : s.op ≠ .send ∨ (s.seq ≠ .phase .pay .tx ∧ s.seq ≠ .phase .pay .rx) ∨
    (s.seq = .phase .pay .tx ∧ s.octetCount .pay ≤ s.cnt.toNat)) : execPayOut d s = .fault .outOfPhase := by
  rcases h with h | ⟨htx, hrx⟩ | ⟨hq, hc⟩
  · simp [execPayOut, h]
  · simp [execPayOut, htx, hrx]
  · simp [execPayOut, hq, Nat.not_lt.mpr hc]

/-- A phase that is filled is the Length or the Payload phase, at one of its two exchange steps. -/
theorem fillPhase_eq_some {q : Seq} {st : Sub} (h : fillPhase q = some (ph, st)) :
    q = .phase ph st ∧ ph ≠ .hdr ∧ (st = .tx ∨ st = .rx) := by
  unfold fillPhase at h
  split at h <;> cases h <;> simp

/-- `FILL` out of the Length and Payload phases of `RECV`, or past the last octet, is no step. -/
theorem execFill_fault (h : s.op ≠ .recv ∨ (∀ ph st, ph ≠ .hdr → st = .tx ∨ st = .rx → s.seq ≠ .phase ph st) ∨
    (∃ ph, s.seq = .phase ph .tx ∧ s.octetCount ph ≤ s.cnt.toNat)) : execFill s = .fault .outOfPhase := by
  rcases h with h | h | ⟨ph, hq, hc⟩
  · simp [execFill, h]
  · have hnone : fillPhase s.seq = none := by
      cases hf : fillPhase s.seq with
      | none => rfl
      | some p =>
        obtain ⟨hq, hph, hst⟩ := fillPhase_eq_some hf
        exact absurd hq (h p.1 p.2 hph hst)
    simp [execFill, hnone]
  · cases ph <;> simp [execFill, fillPhase, hq, Nat.not_lt.mpr hc]

/-- `LEN_IN` at any step but its own, or past the fourth octet, is no step. -/
theorem execLenIn_fault {u : BitVec 1} {l : BitVec 7} {h v m : Octet}
    (hout : s.op ≠ .recv ∨ s.seq ≠ .phase .len .rx ∨ 4 ≤ s.cnt.toNat) : execLenIn u l h v m s = .fault .outOfPhase := by
  rcases hout with ho | hq | hc
  · simp [execLenIn, ho]
  · simp [execLenIn, hq]
  · have hnone : (encode (.lenIn u l h v m))[s.cnt.toNat]? = none := List.getElem?_eq_none hc
    simp [execLenIn, hnone]

/-- `PAY_IN` at any step but its own is no step. -/
theorem execPayIn_fault {d : Octet} (h : s.op ≠ .recv ∨ s.seq ≠ .phase .pay .rx) : execPayIn d s = .fault .outOfPhase := by
  rcases h with h | h <;> simp [execPayIn, h]

/-- A store at or above `MAXL` is a fault (R52). -/
theorem State.capturePay_of_ge (hc : s.maxl.toNat ≤ s.cnt.toNat) (v : Octet) : s.capturePay v = .fault .dstRange := by
  rcases s.capturePay_cases v with ⟨hlt, -⟩ | ⟨-, e⟩
  · omega
  · exact e

end Sys2Proof.Machine

open Sys2Proof Sys2Proof.Machine

/-- Settles O39: row by row, the branch of its meaning that is no step. -/
theorem rowsOutOfPlaceStop : Obligations.RowsOutOfPlaceStop := by
  unfold Obligations.RowsOutOfPlaceStop
  refine ⟨fun s i o ph hi h => ?_, fun s h => execFill_fault h, fun s u l h v m hout => execLenIn_fault hout,
    fun s d h => execPayIn_fault h, fun s d ho hq hc => ⟨?_, fun hv => ?_⟩, fun s hp => ⟨fun h => ?_, fun h => ?_, fun h => ?_⟩⟩
  · rcases hi with ⟨rfl, rfl, rfl⟩ | ⟨rfl, rfl, rfl⟩ | ⟨⟨l, b, rfl⟩, rfl, rfl⟩ | ⟨⟨d, rfl⟩, rfl, rfl⟩
    · exact sendFrame_fault h
    · exact sendFrame_fault h
    · exact sendFrame_fault h
    · exact execPayOut_fault h
  · exact (execPayIn_at_rx ho hq d).trans (State.capturePay_of_ge hc d)
  · have hread : fillRead .pay s = s.capturePay d := by simp [fillRead, hv]
    exact (execFill_at_rx ho (Or.inr rfl) hq).trans (hread.trans (State.capturePay_of_ge hc d))
  · rcases h with ho | ⟨hclk, hcfgw⟩
    · simp [exec, execInit, hp, ho]
    · cases hq : s.seq <;> simp_all [exec, execInit, initStep]
  · rcases h with ho | ⟨ph, hq, hc⟩ | ⟨ph, hq⟩ | hq | hq | hq | hq | ⟨k, hq⟩
    · simp [exec, execSend, hp, ho]
    · simp [exec, execSend, hp, sendStep, hq, hc]
    all_goals simp [exec, execSend, hp, sendStep, hq]
  · rcases h with ho | ⟨ph, hq, hc⟩ | ⟨ph, hq⟩ | hq | hq | hq | ⟨k, hq⟩
    · simp [exec, execRecv, hp, ho]
    · simp [exec, execRecv, hp, recvStep, hq, hc]
    all_goals simp [exec, execRecv, hp, recvStep, hq]

end

section
/-! The step of the machine (R12): the command port first, then the host, then the engine; `rst` and the console's policy as acts of the host. -/

namespace Sys2Proof.Machine

variable {s : State}

/-- A request on the command port is taken first (R12; log 12). -/
theorem step_of_request {r : Request} (hrx : s.par.supportsReceive = true) (hp : s.port = some r) :
    step s = exec (decodeCommand r.code) s := by
  simp [step, hrx, hp]

/-- With none there, an act of the host that is due comes next (log 12). -/
theorem step_of_hostDue {a : Act} {rest : List HostAct} (hrx : s.par.supportsReceive = true) (hp : s.port = none)
    (hd : s.hostDue = some (a, rest)) : step s = .next (s.hostStep a rest) := by
  simp [step, hrx, hp, hd]

/-- With nothing asked for and no act due, the row that is fetched runs, and a waiting act counts the step (R12, R25). -/
theorem step_of_fetch {i : Instr} (hrx : s.par.supportsReceive = true) (hp : s.port = none) (hd : s.hostDue = none)
    (hf : engineFetch s = .run i) : step s = exec i s.tick := by
  simp [step, hrx, hp, hd, engineStep, hf]

/-- An idle block only counts the step for a waiting act. -/
theorem step_of_idle (hrx : s.par.supportsReceive = true) (hp : s.port = none) (hd : s.hostDue = none)
    (hf : engineFetch s = .idle) : step s = .next s.tick := by
  simp [step, hrx, hp, hd, engineStep, hf]

/-- Every code is one of the four operations (R93). -/
theorem decodeCommand_eq (c : BitVec 2) :
    decodeCommand c = .init ∨ decodeCommand c = .send ∨ decodeCommand c = .recv ∨ decodeCommand c = .query := by
  unfold decodeCommand
  split_ifs <;> simp

/-- A command that is taken off the port, whatever becomes of it: the port is free again and the host's acts are as they were. -/
theorem exec_command_port {r : Request} (hp : s.port = some r) (c : BitVec 2) :
    ∃ t, exec (decodeCommand c) s = .next t ∧ t.port = none ∧ t.host = s.host := by
  rcases decodeCommand_eq c with hc | hc | hc | hc <;> rw [hc]
  · refine ⟨_, exec_init_of_request hp, ?_⟩
    rcases acceptInit_cases r s.clearPort with ⟨-, e⟩ | ⟨-, -, e⟩ | ⟨-, -, e⟩ <;> rw [e] <;> exact ⟨rfl, rfl⟩
  · refine ⟨_, exec_send_of_request hp, ?_⟩
    rcases acceptSend_cases r s.clearPort with ⟨-, e⟩ | ⟨-, -, e⟩ | ⟨-, -, -, e⟩ | ⟨-, -, -, e⟩ <;> rw [e] <;> exact ⟨rfl, rfl⟩
  · refine ⟨_, exec_recv_of_request hp, ?_⟩
    rcases acceptRecv_cases r s.clearPort with ⟨-, e⟩ | ⟨-, -, e⟩ | ⟨-, -, e⟩ <;> rw [e] <;> exact ⟨rfl, rfl⟩
  · exact ⟨_, rfl, rfl, rfl⟩

/-- `rst` taken while idle leaves the destination and the environment (R260). -/
theorem State.applyReset_of_idle (ho : s.op = .none) : s.applyReset = s.resetBlock := by
  simp [State.applyReset, busy_eq_false_iff.mpr ho]

/-- `rst` taken while BUSY leaves them free (R261). -/
theorem State.applyReset_of_busy (ho : s.op ≠ .none) : s.applyReset = s.scramble.resetBlock := by
  simp [State.applyReset, busy_iff.mpr ho]

end Sys2Proof.Machine

open Sys2Proof Sys2Proof.Machine

/-- Settles O45: the reset values, one by one. -/
theorem resetState : Obligations.ResetState := ⟨rfl, rfl, rfl, rfl, rfl, rfl, rfl⟩

/-- Settles O46: `rst` idle and busy, and a request that stands on the port. -/
theorem rstResetsTheBlock : Obligations.RstResetsTheBlock := by
  unfold Obligations.RstResetsTheBlock
  intro s rest hrx hd
  refine ⟨fun r hp => ?_, fun hp => ⟨_, step_of_hostDue hrx hp hd, ?_⟩⟩
  · rw [step_of_request hrx hp]
    exact exec_command_port hp r.code
  · simp only [State.hostStep]
    by_cases ho : s.op = .none
    · rw [State.applyReset_of_idle (s := { s with host := rest }) ho]
      exact ⟨rfl, rfl, rfl, rfl, rfl, rfl, rfl, rfl, rfl, hp, rfl, rfl, fun _ => ⟨rfl, rfl⟩, fun hne => absurd ho hne⟩
    · rw [State.applyReset_of_busy (s := { s with host := rest }) ho]
      exact ⟨rfl, rfl, rfl, rfl, rfl, rfl, rfl, rfl, rfl, hp, rfl, rfl, fun h => absurd h ho,
        fun _ => ⟨rfl, Memory.wf_ofCells _, rfl⟩⟩

/-- Settles O47: the policy's step looks at the result port, and its request is the host's with the code of `RECV`. -/
theorem consolePolicy : Obligations.ConsolePolicy := by
  unfold Obligations.ConsolePolicy
  intro s r rest hrx hp hd
  refine ⟨fun hon => ?_, fun hoff => ⟨{ r with code := 0b10 }, rfl, rfl, rfl, ?_⟩⟩
  · rw [step_of_hostDue hrx hp hd]
    simp [State.hostStep, hon]
  · rw [step_of_hostDue hrx hp hd]
    simp [State.hostStep, hoff]

/-- Settles O48: the branches of the step, in their order. -/
theorem stepRunsTheFetchedRow : Obligations.StepRunsTheFetchedRow := by
  unfold Obligations.StepRunsTheFetchedRow
  intro s
  refine ⟨fun hrx => by simp [step, hrx], fun hrx => ⟨fun r hp => step_of_request hrx hp, fun a rest hp hd => step_of_hostDue hrx hp hd,
    fun i hp hd hf => step_of_fetch hrx hp hd hf, fun hp hd ho hq => ?_⟩⟩
  exact step_of_idle hrx hp hd (by simp [engineFetch, ho, hq])

end

section
/-! Frames (R118, R141, R175, R200): what each row leaves unchanged. A frame is an equation that lists the fields that may differ; the equations of
the shared operations are true by computation, and each row gets its frame from the cases of what it can do. -/

namespace Sys2Proof.Machine

variable {s t : State} {ph : Phase}

/-! ## The wire rows -/

/-- A step of a row the master sends: the link, the trace, `CS_ACT`, `CNT` and `SEQ` may differ. -/
def OnlyLink (s t : State) : Prop := t = { s with env := t.env, trace := t.trace, csAct := t.csAct, cnt := t.cnt, seq := t.seq }

theorem OnlyLink.dst (h : OnlyLink s t) : t.dst = s.dst := by rw [OnlyLink] at h; rw [h]

theorem OnlyLink.fb (h : OnlyLink s t) : t.fb = s.fb := by rw [OnlyLink] at h; rw [h]

theorem OnlyLink.len (h : OnlyLink s t) : t.len = s.len := by rw [OnlyLink] at h; rw [h]

theorem onlyLink_txStep (s : State) (ph : Phase) (b : Octet) : OnlyLink s (s.txStep ph b) := by
  rcases s.txStep_cases ph b with ⟨-, e⟩ | ⟨-, e⟩ <;> rw [e] <;> rfl

theorem onlyLink_rxDiscard (s : State) (ph : Phase) : OnlyLink s (s.rxDiscard ph) := by
  rcases s.rxDiscard_cases ph with ⟨v, -, e⟩ | ⟨-, e⟩ <;> rw [e] <;> rfl

theorem onlyLink_of_sendFrame {o : Op} {bs : List Octet} (e : sendFrame o ph bs s = .next t) : OnlyLink s t := by
  obtain ⟨-, ⟨b, -, -, rfl⟩ | ⟨-, rfl⟩⟩ := sendFrame_cases e
  · exact onlyLink_txStep s ph b
  · exact onlyLink_rxDiscard s ph

theorem onlyLink_of_execPayOut {d : Octet} (e : execPayOut d s = .next t) : OnlyLink s t := by
  obtain ⟨-, ⟨-, -, rfl⟩ | ⟨-, rfl⟩⟩ := execPayOut_cases e
  · exact onlyLink_txStep s .pay d
  · exact onlyLink_rxDiscard s .pay

/-- `FILL` stands for the row whose octet it waits for: filler is sent, or the exchange waits, or a Length octet is captured, or a payload octet
is stored. -/
theorem execFill_outcomes (e : execFill s = .next t) :
    OnlyLink s t ∨
    (s.op = .recv ∧ s.seq = .phase .len .rx ∧ ∃ v, t = s.captureLen v) ∨
    (s.op = .recv ∧ s.seq = .phase .pay .rx ∧ s.cnt.toNat < s.maxl.toNat ∧
      ∃ v, t = State.rxTake { s with dst := s.dst.write s.cnt.toNat v } .pay v) := by
  obtain ⟨ho, ph, hp, ⟨-, -, rfl⟩ | ⟨hq, hr⟩⟩ := execFill_cases e
  · exact Or.inl (onlyLink_txStep s ph _)
  · rcases fillRead_cases hr with ⟨-, rfl⟩ | ⟨v, -, hlen, rfl⟩ | ⟨v, -, hne, hc, rfl⟩
    · exact Or.inl rfl
    · exact Or.inr (Or.inl ⟨ho, hlen ▸ hq, v, rfl⟩)
    · exact Or.inr (Or.inr ⟨ho, hp.resolve_left hne ▸ hq, hc, v, rfl⟩)

/-! ## SEND -/

/-- A step of `SEND`: the registers of `RECV`, the configuration, the destination, the ports it does not own and the host are unchanged. -/
def OnlySend (s t : State) : Prop :=
  t = { s with tmode := t.tmode, op := t.op, seq := t.seq, len := t.len, cnt := t.cnt, fb := t.fb, csAct := t.csAct, msg := t.msg
               port := t.port, ret := t.ret, env := t.env, marks := t.marks, trace := t.trace }

theorem OnlySend.dst (h : OnlySend s t) : t.dst = s.dst := by rw [OnlySend] at h; rw [h]

/-- What a step of `SEND` that moves no octet keeps: the mode and the length outside the mode step, and the message, the port and the marks. -/
structure KeepsSend (s t : State) : Prop where
  frame : OnlySend s t
  mode : s.seq ≠ .mode → t.tmode = s.tmode ∧ t.len = s.len
  request : t.msg = s.msg ∧ t.port = s.port ∧ t.marks = s.marks

theorem keepsSend_hsStep (s : State) (ph : Phase) : KeepsSend s (s.hsStep (sendAfter ph)) := by
  rcases s.hsStep_cases (sendAfter ph) with ⟨-, e⟩ | ⟨-, e⟩ <;> rw [e]
  · cases ph <;> exact ⟨rfl, fun _ => ⟨rfl, rfl⟩, rfl, rfl, rfl⟩
  · exact ⟨rfl, fun _ => ⟨rfl, rfl⟩, rfl, rfl, rfl⟩

theorem keepsSend_of_sendStep (e : sendStep s = .next t) : KeepsSend s t := by
  rcases sendStep_cases e with ⟨hq, rfl⟩ | ⟨ph, -, -, rfl⟩ | ⟨ph, -, rfl⟩ | ⟨ph, -, rfl⟩ | ⟨ph, -, rfl⟩
  · exact ⟨rfl, fun hne => absurd hq hne, rfl, rfl, rfl⟩
  · exact ⟨rfl, fun _ => ⟨rfl, rfl⟩, rfl, rfl, rfl⟩
  · exact ⟨rfl, fun _ => ⟨rfl, rfl⟩, rfl, rfl, rfl⟩
  · exact ⟨rfl, fun _ => ⟨rfl, rfl⟩, rfl, rfl, rfl⟩
  · exact keepsSend_hsStep s ph

/-- Acceptance of `SEND` writes no mode and no length. -/
theorem acceptSend_frame (r : Request) (s : State) :
    OnlySend s (acceptSend r s.clearPort) ∧ (acceptSend r s.clearPort).tmode = s.tmode ∧ (acceptSend r s.clearPort).len = s.len := by
  rcases acceptSend_cases r s.clearPort with ⟨-, e⟩ | ⟨-, -, e⟩ | ⟨-, -, -, e⟩ | ⟨-, -, -, e⟩ <;> rw [e] <;> exact ⟨rfl, rfl, rfl⟩

/-! ## RECV -/

/-- A step of `RECV`: the mode, the configuration, `LEN`, the message and the host are unchanged. -/
def OnlyRecv (s t : State) : Prop :=
  t = { s with op := t.op, seq := t.seq, len := s.len, nrd := t.nrd, maxl := t.maxl, cnt := t.cnt, fb := t.fb, csAct := t.csAct
               dst := t.dst, port := t.port, ret := t.ret, env := t.env, marks := t.marks, trace := t.trace }

/-- What a step of `RECV` that moves no octet keeps: `MAXL`, the marks, and the destination except for post-processing. -/
structure KeepsRecv (s t : State) : Prop where
  frame : OnlyRecv s t
  bound : t.maxl = s.maxl ∧ t.marks = s.marks
  dst : t.dst = s.dst ∨ (s.seq = .post ∧ t.dst = postProcess s.dst s.len s.maxl)

theorem keepsRecv_hsStep (s : State) (ph : Phase) : KeepsRecv s (s.hsStep (recvAfter ph)) := by
  rcases s.hsStep_cases (recvAfter ph) with ⟨-, e⟩ | ⟨-, e⟩ <;> rw [e]
  · cases ph <;> exact ⟨rfl, ⟨rfl, rfl⟩, Or.inl rfl⟩
  · exact ⟨rfl, ⟨rfl, rfl⟩, Or.inl rfl⟩

theorem keepsRecv_recvLoopStep (s : State) : KeepsRecv s (recvLoopStep s) := by
  unfold recvLoopStep
  split <;> exact ⟨rfl, ⟨rfl, rfl⟩, Or.inl rfl⟩

theorem keepsRecv_of_recvStep (e : recvStep s = .next t) : KeepsRecv s t := by
  rcases recvStep_cases e with ⟨ph, -, -, rfl⟩ | ⟨ph, -, rfl⟩ | ⟨ph, -, rfl⟩ | ⟨ph, -, rfl⟩ | ⟨hq, rfl⟩ | ⟨-, rfl⟩
  · exact ⟨rfl, ⟨rfl, rfl⟩, Or.inl rfl⟩
  · exact ⟨rfl, ⟨rfl, rfl⟩, Or.inl rfl⟩
  · exact ⟨rfl, ⟨rfl, rfl⟩, Or.inl rfl⟩
  · exact keepsRecv_hsStep s ph
  · exact ⟨rfl, ⟨rfl, rfl⟩, Or.inr ⟨hq, rfl⟩⟩
  · exact keepsRecv_recvLoopStep s

theorem acceptRecv_frame (r : Request) (s : State) : OnlyRecv s (acceptRecv r s.clearPort) := by
  rcases acceptRecv_cases r s.clearPort with ⟨-, e⟩ | ⟨-, -, e⟩ | ⟨-, -, e⟩ <;> rw [e] <;> rfl

/-- Post-processing changes no octet at or above `MAXL`: the terminator is written only below it, and normalisation stays below the terminator. -/
theorem read_postProcess_of_ge {m : Memory} (h : Memory.wf m = true) {len : Len15} {maxl : BitVec Config.maxlW} {j : Nat}
    (hj : maxl.toNat ≤ j) : (postProcess m len maxl).read j = m.read j := by
  rw [read_postProcess h]
  have hnorm : ¬ (len.toNat < maxl.toNat ∧ 4 ≤ len.toNat ∧ j < len.toNat - 2 ∧ (m.read j = 0x0D ∨ m.read j = 0x0A)) := by omega
  have hterm : ¬ (len.toNat < maxl.toNat ∧ j = len.toNat) := by omega
  rw [if_neg hnorm, if_neg hterm]

/-- A step of `RECV` that moves no octet changes the destination only below `MAXL` (R52). -/
theorem KeepsRecv.read_of_ge (h : KeepsRecv s t) (hwf : Memory.wf s.dst = true) {j : Nat} (hj : s.maxl.toNat ≤ j) :
    t.dst.read j = s.dst.read j := by
  rcases h.dst with hd | ⟨-, hd⟩ <;> rw [hd]
  exact read_postProcess_of_ge hwf hj

/-! ## INIT -/

/-- A step of `INIT`: the mode, the link, the memories and the host are unchanged. -/
def OnlyInit (s t : State) : Prop :=
  t = { s with op := t.op, seq := t.seq, hz := t.hz, div := t.div, cfg := t.cfg, cfgValid := t.cfgValid, port := t.port, ret := t.ret
               env := t.env, marks := t.marks, trace := t.trace }

theorem OnlyInit.dst (h : OnlyInit s t) : t.dst = s.dst := by rw [OnlyInit] at h; rw [h]

/-- What a step of `INIT` does to the environment, the trace and the configuration: an answer of the clock or a write of a field, or neither. -/
structure KeepsInit (s t : State) : Prop where
  frame : OnlyInit s t
  link : t.env.tx = s.env.tx ∧ t.env.rx = s.env.rx ∧ t.env.hs = s.env.hs
  trace : t.trace = s.trace ∨ (∃ f, t.trace = .clk f :: s.trace) ∨ ∃ w, t.trace = .cfg w :: s.trace
  cfg : (∃ k, s.seq = .cfgw k) ∨ (t.cfg = s.cfg ∧ t.cfgValid = s.cfgValid)

/-- Reading the clock uses up no answer of the link or of the handshake line. -/
theorem Env.popClk_link (e : Env) : e.popClk.tx = e.tx ∧ e.popClk.rx = e.rx ∧ e.popClk.hs = e.hs := by
  unfold Env.popClk
  split <;> exact ⟨rfl, rfl, rfl⟩

theorem keepsInit_clkStep (s : State) : KeepsInit s (clkStep s) := by
  rcases clkStep_cases s with ⟨d, -, e⟩ | ⟨r, -, e⟩ <;> rw [e] <;>
    exact ⟨rfl, s.env.popClk_link, Or.inr (Or.inl ⟨_, rfl⟩), Or.inr ⟨rfl, rfl⟩⟩

theorem keepsInit_cfgStep {k : Fin 8} (hq : s.seq = .cfgw k) : KeepsInit s (cfgStep s k) := by
  unfold cfgStep
  split <;> exact ⟨rfl, ⟨rfl, rfl, rfl⟩, Or.inr (Or.inr ⟨_, rfl⟩), Or.inl ⟨k, hq⟩⟩

theorem keepsInit_of_initStep (e : initStep s = .next t) : KeepsInit s t := by
  rcases initStep_cases e with ⟨-, rfl⟩ | ⟨k, hq, rfl⟩
  · exact keepsInit_clkStep s
  · exact keepsInit_cfgStep hq

theorem keepsInit_acceptInit (r : Request) (s : State) :
    KeepsInit s (acceptInit r s.clearPort) ∧ (acceptInit r s.clearPort).cfg = s.cfg ∧
      (acceptInit r s.clearPort).cfgValid = s.cfgValid := by
  rcases acceptInit_cases r s.clearPort with ⟨-, e⟩ | ⟨-, -, e⟩ | ⟨-, -, e⟩ <;> rw [e] <;>
    exact ⟨⟨rfl, ⟨rfl, rfl, rfl⟩, Or.inl rfl, Or.inr ⟨rfl, rfl⟩⟩, rfl, rfl⟩

theorem keepsInit_of_execInit (e : execInit s = .next t) : KeepsInit s t := by
  rcases execInit_cases e with ⟨r, -, rfl⟩ | ⟨-, -, hs⟩
  · exact (keepsInit_acceptInit r s).1
  · exact keepsInit_of_initStep hs

end Sys2Proof.Machine

open Sys2Proof Sys2Proof.Machine

/-- Settles O40: the four rows have the frame `OnlyLink`, and `DST` is not in it. -/
theorem sendingRowsFrame : Obligations.SendingRowsFrame := by
  unfold Obligations.SendingRowsFrame
  intro s t i hi e
  have hframe : OnlyLink s t := by
    rcases hi with rfl | rfl | ⟨l, h, rfl⟩ | ⟨d, rfl⟩
    · exact onlyLink_of_sendFrame e
    · exact onlyLink_of_sendFrame e
    · exact onlyLink_of_sendFrame e
    · exact onlyLink_of_execPayOut e
  exact ⟨hframe, fun j => by rw [hframe.dst]⟩

/-- Settles O41: a capture writes `FB` and `LEN`, a store the octet at `CNT`, and `FILL` is one of the two or neither. -/
theorem readingRowsFrame : Obligations.ReadingRowsFrame := by
  unfold Obligations.ReadingRowsFrame
  intro s t _
  refine ⟨fun u l h v m e => ?_, fun d e => ?_, fun e => ?_⟩
  · obtain ⟨-, -, b, -, rfl⟩ := execLenIn_cases e
    exact ⟨rfl, fun j => rfl⟩
  · obtain ⟨-, -, -, rfl⟩ := execPayIn_cases e
    exact ⟨rfl, fun j hj => Memory.read_write_other d (Ne.symm hj)⟩
  · rcases execFill_outcomes e with hlink | ⟨-, hq, v, rfl⟩ | ⟨-, hq, -, v, rfl⟩
    · refine ⟨?_, fun j _ => by rw [hlink.dst], fun _ => ⟨hlink.fb, hlink.len⟩⟩
      rw [hlink.fb, hlink.len, hlink.dst]
      exact hlink
    · exact ⟨rfl, fun j _ => rfl, fun hne => absurd hq hne⟩
    · exact ⟨rfl, fun j hj => Memory.read_write_other v fun hc => hj ⟨hq, hc.symm⟩, fun _ => ⟨rfl, rfl⟩⟩

/-- Settles O42: acceptance and the steps of `SEND` have the frame `OnlySend`. -/
theorem sendFrame : Obligations.SendFrame := by
  unfold Obligations.SendFrame
  intro s t e
  rcases execSend_cases e with ⟨r, hp, rfl⟩ | ⟨hp, -, hs⟩
  · obtain ⟨hframe, hmode, hlen⟩ := acceptSend_frame r s
    exact ⟨hframe, fun j => by rw [hframe.dst], fun _ => ⟨hmode, hlen⟩, fun hnone => by rw [hp] at hnone; cases hnone⟩
  · obtain ⟨hframe, hmode, hmsg, hport, hmarks⟩ := keepsSend_of_sendStep hs
    exact ⟨hframe, fun j => by rw [hframe.dst], fun h => hmode (h.resolve_right fun hne => hne hp),
      fun _ => ⟨hmsg, hport.trans hp, hmarks⟩⟩

/-- Settles O43: acceptance and the steps of `RECV` have the frame `OnlyRecv`, and only post-processing writes `DST`. -/
theorem recvFrame : Obligations.RecvFrame := by
  unfold Obligations.RecvFrame
  intro s t hwf e
  rcases execRecv_cases e with ⟨r, hp, rfl⟩ | ⟨-, -, hs⟩
  · exact ⟨acceptRecv_frame r s, fun hnone => by rw [hp] at hnone; cases hnone⟩
  · have keeps := keepsRecv_of_recvStep hs
    obtain ⟨hmaxl, hmarks⟩ := keeps.bound
    exact ⟨keeps.frame, fun _ => ⟨hmaxl, hmarks, fun j hj => keeps.read_of_ge hwf hj,
      fun hne => keeps.dst.resolve_right fun hpost => hne hpost.1⟩⟩

/-- Settles O44: acceptance and the steps of `INIT` have the frame `OnlyInit`; only the `CFGW` steps write the configuration. -/
theorem initFrame : Obligations.InitFrame := by
  unfold Obligations.InitFrame
  intro s t e
  obtain ⟨hframe, ⟨htx, hrx, hhs⟩, htrace, hcfg⟩ := keepsInit_of_execInit e
  refine ⟨hframe, htx, hrx, hhs, htrace, fun j => by rw [hframe.dst], fun hq => hcfg.resolve_left ?_⟩
  rintro ⟨k, hk⟩
  rw [hq] at hk
  cases hk

end

section
/-! Which row runs at which step of a state of the invariant (R25, R117, R140, R186), and that it answers a next state (R230). -/

namespace Sys2Proof.Machine

variable {s t : State} {ph : Phase} {i : Instr}

/-! ## Frames in the buffer -/

/-- A frame in the buffer is fetched as the instruction that put it there (R31, R90). -/
theorem fetchFrame_ofInstr (hlen : (encode i).length = 4) : fetchFrame (place i) (FrameBuf.ofInstr i).octets = .run i := by
  rw [FrameBuf.ofInstr, FrameBuf.octets_ofOctets hlen]
  exact fetchFrame_eq_run_iff.mpr (decodeAt_place_encode i)

/-- Whatever the buffer holds is an incoming Length frame (R84). -/
theorem fetchFrame_lengthIn (f : FrameBuf) : ∃ u l h r m, fetchFrame .lengthIn f.octets = .run (.lenIn u l h r m) ∧
    encode (.lenIn u l h r m) = f.octets :=
  ⟨_, _, _, _, _, rfl, encode_decodeLengthIn f.b0 f.b1 f.b2 f.b3⟩

/-- The octet that was put in the buffer stands at its index. -/
theorem FrameBuf.octets_set (f : FrameBuf) {n : Nat} (hn : n < 4) (v : Octet) : (f.set n v).octets[n]? = some v := by
  match n, hn with
  | 0, _ | 1, _ | 2, _ | 3, _ => rfl

/-! ## The sequencer's choice -/

/-- The sequencer is at the exchange of an octet of a phase (R186). -/
def AtExchange (ph : Phase) (s : State) : Prop := s.seq = .phase ph .tx ∧ s.cnt.toNat < s.octetCount ph ∨ s.seq = .phase ph .rx

/-- The sequencer is past the octets of a phase, at a step of its boundary (R186). -/
def AtBoundary (ph : Phase) (s : State) : Prop :=
  s.seq = .phase ph .tx ∧ s.octetCount ph ≤ s.cnt.toNat ∨ s.seq = .phase ph .rel ∨ s.seq = .phase ph .dly ∨ s.seq = .phase ph .hs

/-- In a phase the sequencer is at an exchange or at the boundary. -/
theorem atExchange_or_atBoundary {st : Sub} (hq : s.seq = .phase ph st) : AtExchange ph s ∨ AtBoundary ph s := by
  cases st with
  | tx =>
    rcases Nat.lt_or_ge s.cnt.toNat (s.octetCount ph) with hc | hc
    · exact Or.inl (Or.inl ⟨hq, hc⟩)
    · exact Or.inr (Or.inl ⟨hq, hc⟩)
  | rx => exact Or.inl (Or.inr hq)
  | rel => exact Or.inr (Or.inr (Or.inl hq))
  | dly => exact Or.inr (Or.inr (Or.inr (Or.inl hq)))
  | hs => exact Or.inr (Or.inr (Or.inr (Or.inr hq)))

theorem engineFetch_send_exchange (ho : s.op = .send) (h : AtExchange ph s) : engineFetch s = sendRow s ph := by
  rcases h with ⟨hq, hc⟩ | hq
  · simp [engineFetch, ho, hq, hc]
  · simp [engineFetch, ho, hq]

theorem engineFetch_send_boundary (ho : s.op = .send) (h : AtBoundary ph s) : engineFetch s = .run .send := by
  rcases h with ⟨hq, hc⟩ | hq | hq | hq
  · simp [engineFetch, ho, hq, Nat.not_lt.mpr hc]
  all_goals simp [engineFetch, ho, hq]

theorem engineFetch_recv_tx (ho : s.op = .recv) (hq : s.seq = .phase ph .tx) (hc : s.cnt.toNat < s.octetCount ph) :
    engineFetch s = recvRow s ph := by
  simp [engineFetch, ho, hq, hc]

theorem engineFetch_recv_rx (ho : s.op = .recv) (hq : s.seq = .phase ph .rx) : engineFetch s = recvReadRow s ph := by
  simp [engineFetch, ho, hq]

theorem engineFetch_recv_boundary (ho : s.op = .recv) (h : AtBoundary ph s) : engineFetch s = .run .recv := by
  rcases h with ⟨hq, hc⟩ | hq | hq | hq
  · simp [engineFetch, ho, hq, Nat.not_lt.mpr hc]
  all_goals simp [engineFetch, ho, hq]

theorem engineFetch_init (ho : s.op = .init) : engineFetch s = .run .init := by simp [engineFetch, ho]

/-- Where a filler exchange has no octet yet, or sends one, the row is `FILL` (R89). -/
theorem recvRow_fill (hp : ph = .len ∨ ph = .pay) : recvRow s ph = .run .fill := by
  rcases hp with rfl | rfl <;> rfl

/-! ## The rows of SEND -/

/-- At an exchange an octet of the phase is left. -/
theorem AtExchange.cnt_lt (h : AtExchange ph s) (hinv : Inv s) : s.cnt.toNat < s.octetCount ph := by
  rcases h with ⟨-, hc⟩ | hq
  · exact hc
  · exact hinv.cnt_lt_at_rx hq

theorem AtExchange.seq (h : AtExchange ph s) : ∃ st, s.seq = .phase ph st := by
  rcases h with ⟨hq, -⟩ | hq
  · exact ⟨_, hq⟩
  · exact ⟨_, hq⟩

/-- No more octets are sent than the message has (R112, R167). -/
theorem sendLen_toNat_le {p : Params} {m : List Octet} (h : m.length ≤ Config.lenMax) : (sendLen p m).toNat ≤ m.length := by
  cases hs : isEndSentinel p m with
  | false => rw [sendLen_of_not_endSentinel hs, msgLen_toNat h]
  | true =>
    rw [sendLen_of_endSentinel hs]
    simp only [isEndSentinel, Bool.and_eq_true, decide_eq_true_eq] at hs
    exact hs.1.1

/-- In the Header phase of `SEND` its Header frame runs. -/
theorem sendRow_hdr (hinv : Inv s) (ho : s.op = .send) (h : AtExchange .hdr s) : sendRow s .hdr = .run .hdrSend := by
  obtain ⟨st, hq⟩ := h.seq
  rw [sendRow, frameFits_hdr_of_send hinv.frame ho hq]
  exact fetchFrame_ofInstr (i := .hdrSend) rfl

/-- In its Length phase the frame of `LEN` runs. -/
theorem sendRow_len (hinv : Inv s) (ho : s.op = .send) (h : AtExchange .len s) : sendRow s .len = .run (lengthFrame s.len) := by
  obtain ⟨st, hq⟩ := h.seq
  have hfb : s.fb = FrameBuf.ofInstr (lengthFrame s.len) := by simpa [frameFits, ho, hq] using hinv.frame
  rw [sendRow, hfb]
  exact fetchFrame_ofInstr (i := lengthFrame s.len) rfl

/-- In its Payload phase there is an octet of the message at `CNT` (R51, R115). -/
theorem msg_getElem?_of_pay (hinv : Inv s) (ho : s.op = .send) (h : AtExchange .pay s) : ∃ d, s.msg[s.cnt.toNat]? = some d := by
  obtain ⟨st, hq⟩ := h.seq
  obtain ⟨hmsg, hlen⟩ := hinv.len_of_send ho
  have hc : s.cnt.toNat < s.len.toNat := by simpa [State.octetCount_pay_of_send ho] using h.cnt_lt hinv
  rw [hlen (by simp [hq])] at hc
  exact ⟨_, List.getElem?_eq_getElem (Nat.lt_of_lt_of_le hc (sendLen_toNat_le hmsg))⟩

/-- In its Payload phase that octet runs. -/
theorem sendRow_pay {d : Octet} (hd : s.msg[s.cnt.toNat]? = some d) : sendRow s .pay = .run (.payOut d) := by
  simp [sendRow, hd, fetchFrame, decodeAt]

/-! ## The rows of RECV -/

/-- In the Header phase of `RECV` its Header frame runs. -/
theorem fetch_recv_hdr (hinv : Inv s) (ho : s.op = .recv) (h : AtExchange .hdr s) : engineFetch s = .run .hdrRecv := by
  obtain ⟨st, hq⟩ := h.seq
  have hrow : fetchFrame .header s.fb.octets = .run .hdrRecv := by
    rw [frameFits_hdr_of_recv hinv.frame ho hq]
    exact fetchFrame_ofInstr (i := .hdrRecv) rfl
  rcases h with ⟨htx, hc⟩ | hrx
  · rw [engineFetch_recv_tx ho htx hc]; exact hrow
  · rw [engineFetch_recv_rx ho hrx]; exact hrow

/-- Once an octet of the Length frame is valid, `LEN_IN` runs with that octet at `CNT` (R133). -/
theorem fetch_recv_lenIn (hinv : Inv s) (ho : s.op = .recv) (hq : s.seq = .phase .len .rx) {v : Octet} (hv : s.env.rxAnswer = some v) :
    ∃ u l h r m, engineFetch s = .run (.lenIn u l h r m) ∧ (encode (.lenIn u l h r m))[s.cnt.toNat]? = some v := by
  obtain ⟨u, l, h, r, m, hf, he⟩ := fetchFrame_lengthIn (s.fb.set s.cnt.toNat v)
  refine ⟨u, l, h, r, m, ?_, ?_⟩
  · rw [engineFetch_recv_rx ho hq]
    simpa [recvReadRow, hv] using hf
  · rw [he]
    exact FrameBuf.octets_set _ (hinv.cnt_lt_at_rx hq) v

/-- Once a payload octet is valid, `PAY_IN` runs with it (R136). -/
theorem fetch_recv_payIn (ho : s.op = .recv) (hq : s.seq = .phase .pay .rx) {v : Octet} (hv : s.env.rxAnswer = some v) :
    engineFetch s = .run (.payIn v) := by
  rw [engineFetch_recv_rx ho hq]
  simp [recvReadRow, hv, fetchFrame, decodeAt]

/-- Until then the filler exchange goes on (R89). -/
theorem fetch_recv_fill_waiting (ho : s.op = .recv) (hp : ph = .len ∨ ph = .pay) (hq : s.seq = .phase ph .rx)
    (hn : s.env.rxAnswer = none) : engineFetch s = .run .fill := by
  rw [engineFetch_recv_rx ho hq, recvReadRow_of_none hn, recvRow_fill hp]

theorem fetch_recv_fill (ho : s.op = .recv) (hp : ph = .len ∨ ph = .pay) (hq : s.seq = .phase ph .tx)
    (hc : s.cnt.toNat < s.octetCount ph) : engineFetch s = .run .fill := by
  rw [engineFetch_recv_tx ho hq hc, recvRow_fill hp]

/-! ## Every step of an operation answers a next state -/

/-- The row that is fetched answers `t`. -/
def RunsTo (s t : State) : Prop := ∃ i, engineFetch s = .run i ∧ exec i s = .next t

/-- The octets `SEND` sends in a phase (R113 to R115). -/
def sendOctets (s : State) (ph : Phase) : List Octet :=
  match ph with
  | .hdr => encode .hdrSend
  | .len => encLen s.len
  | .pay => s.msg.take s.len.toNat

/-- At a TX step with octets left, `SEND` sends octet `CNT` of its phase (R186). -/
theorem send_runsTo_tx (hinv : Inv s) (ho : s.op = .send) (hq : s.seq = .phase ph .tx) (hc : s.cnt.toNat < s.octetCount ph) :
    ∃ b, (sendOctets s ph)[s.cnt.toNat]? = some b ∧ RunsTo s (s.txStep ph b) := by
  have hex : AtExchange ph s := Or.inl ⟨hq, hc⟩
  cases ph with
  | hdr =>
    have hb : (encode .hdrSend)[s.cnt.toNat]? = some (encode .hdrSend)[s.cnt.toNat] := List.getElem?_eq_getElem hc
    exact ⟨_, hb, .hdrSend, (engineFetch_send_exchange ho hex).trans (sendRow_hdr hinv ho hex), sendFrame_of_getElem? ho hq hb⟩
  | len =>
    have hb : (encLen s.len)[s.cnt.toNat]? = some (encLen s.len)[s.cnt.toNat] := List.getElem?_eq_getElem hc
    exact ⟨_, hb, lengthFrame s.len, (engineFetch_send_exchange ho hex).trans (sendRow_len hinv ho hex), sendFrame_of_getElem? ho hq hb⟩
  | pay =>
    obtain ⟨d, hd⟩ := msg_getElem?_of_pay hinv ho hex
    have hlt : s.cnt.toNat < s.len.toNat := by rwa [State.octetCount_pay_of_send ho] at hc
    exact ⟨d, by rw [sendOctets, List.getElem?_take_of_lt hlt, hd], .payOut d,
      (engineFetch_send_exchange ho hex).trans (sendRow_pay hd), execPayOut_at_tx ho hq hc d⟩

/-- At an RX step `SEND` drops the octet that comes back, or waits for it (R175). -/
theorem send_runsTo_rx (hinv : Inv s) (ho : s.op = .send) (hq : s.seq = .phase ph .rx) : RunsTo s (s.rxDiscard ph) := by
  have hex : AtExchange ph s := Or.inr hq
  cases ph with
  | hdr => exact ⟨.hdrSend, (engineFetch_send_exchange ho hex).trans (sendRow_hdr hinv ho hex), sendFrame_at_rx ho hq⟩
  | len => exact ⟨lengthFrame s.len, (engineFetch_send_exchange ho hex).trans (sendRow_len hinv ho hex), sendFrame_at_rx ho hq⟩
  | pay =>
    obtain ⟨d, hd⟩ := msg_getElem?_of_pay hinv ho hex
    exact ⟨.payOut d, (engineFetch_send_exchange ho hex).trans (sendRow_pay hd), execPayOut_at_rx ho hq d⟩

/-- At a boundary `SEND` runs its own steps. -/
theorem send_runsTo_boundary (hp : s.port = none) (ho : s.op = .send) (h : AtBoundary ph s) (e : sendStep s = .next t) : RunsTo s t :=
  ⟨.send, engineFetch_send_boundary ho h, (exec_send_eq hp ho).trans e⟩

/-- The octets `RECV` sends in a phase: its Header frame, else filler for each octet to be read (R89, R132). -/
def recvOctets (s : State) (ph : Phase) : List Octet :=
  match ph with
  | .hdr => encode .hdrRecv
  | .len => List.replicate 4 Config.filler
  | .pay => List.replicate s.nrd.toNat Config.filler

/-- At a TX step with octets left, `RECV` sends octet `CNT` of its phase (R186). -/
theorem recv_runsTo_tx (hinv : Inv s) (ho : s.op = .recv) (hq : s.seq = .phase ph .tx) (hc : s.cnt.toNat < s.octetCount ph) :
    ∃ b, (recvOctets s ph)[s.cnt.toNat]? = some b ∧ RunsTo s (s.txStep ph b) := by
  cases ph with
  | hdr =>
    have hb : (encode .hdrRecv)[s.cnt.toNat]? = some (encode .hdrRecv)[s.cnt.toNat] := List.getElem?_eq_getElem hc
    exact ⟨_, hb, .hdrRecv, fetch_recv_hdr hinv ho (Or.inl ⟨hq, hc⟩), sendFrame_of_getElem? ho hq hb⟩
  | len =>
    exact ⟨Config.filler, List.getElem?_replicate_of_lt hc, .fill, fetch_recv_fill ho (Or.inl rfl) hq hc, execFill_at_tx ho (Or.inl rfl) hq hc⟩
  | pay =>
    have hlt : s.cnt.toNat < s.nrd.toNat := by rwa [State.octetCount_pay_of_recv ho] at hc
    exact ⟨Config.filler, List.getElem?_replicate_of_lt hlt, .fill, fetch_recv_fill ho (Or.inr rfl) hq hc,
      execFill_at_tx ho (Or.inr rfl) hq hc⟩

/-- At an RX step with no valid octet `RECV` waits (R185). -/
theorem recv_runsTo_stall (hinv : Inv s) (ho : s.op = .recv) (hq : s.seq = .phase ph .rx) (hn : s.env.rxAnswer = none) :
    RunsTo s s.rxStall := by
  cases ph with
  | hdr => exact ⟨.hdrRecv, fetch_recv_hdr hinv ho (Or.inr hq), (sendFrame_at_rx ho hq).trans (by rw [State.rxDiscard_of_none hn])⟩
  | len =>
    exact ⟨.fill, fetch_recv_fill_waiting ho (Or.inl rfl) hq hn, MasterRow.fillLen.exec_at_rx_of_none ho hq hn⟩
  | pay =>
    exact ⟨.fill, fetch_recv_fill_waiting ho (Or.inr rfl) hq hn, MasterRow.fillPay.exec_at_rx_of_none ho hq hn⟩

/-- In the Payload phase of a cycle `CNT` stays below `MAXL` (R52, R135). -/
theorem cnt_lt_maxl (hinv : Inv s) (ho : s.op = .recv) (hq : s.seq = .phase .pay .rx) : s.cnt.toNat < s.maxl.toNat := by
  have hc := hinv.cnt_lt_at_rx hq
  rw [State.octetCount_pay_of_recv ho] at hc
  exact Nat.lt_of_lt_of_le hc (nrdFits_recv hinv.nrd ho).2.1

/-- What `RECV` does with a valid octet in a phase: it drops it, captures it, or stores it (R132, R133, R136). -/
def recvTake (s : State) (ph : Phase) (v : Octet) : State :=
  match ph with
  | .hdr => s.rxTake .hdr v
  | .len => s.captureLen v
  | .pay => State.rxTake { s with dst := s.dst.write s.cnt.toNat v } .pay v

/-- At an RX step with a valid octet `RECV` takes it. -/
theorem recv_runsTo_rx (hinv : Inv s) (ho : s.op = .recv) (hq : s.seq = .phase ph .rx) {v : Octet} (hv : s.env.rxAnswer = some v) :
    RunsTo s (recvTake s ph v) := by
  cases ph with
  | hdr => exact ⟨.hdrRecv, fetch_recv_hdr hinv ho (Or.inr hq), (sendFrame_at_rx ho hq).trans (by rw [State.rxDiscard_of_some hv]; rfl)⟩
  | len =>
    obtain ⟨u, l, h, r, m, hf, hb⟩ := fetch_recv_lenIn hinv ho hq hv
    exact ⟨.lenIn u l h r m, hf, execLenIn_at_rx ho hq hb⟩
  | pay =>
    exact ⟨.payIn v, fetch_recv_payIn ho hq hv,
      (execPayIn_at_rx ho hq v).trans (State.capturePay_of_lt (cnt_lt_maxl hinv ho hq) v)⟩

/-- At a boundary `RECV` runs its own steps. -/
theorem recv_runsTo_boundary (hp : s.port = none) (ho : s.op = .recv) (h : AtBoundary ph s) (e : recvStep s = .next t) : RunsTo s t :=
  ⟨.recv, engineFetch_recv_boundary ho h, (exec_recv_eq hp ho).trans e⟩

theorem sendStep_of_boundary (h : AtBoundary ph s) : ∃ t, sendStep s = .next t := by
  rcases h with ⟨hq, hc⟩ | hq | hq | hq
  · exact ⟨_, sendStep_at_end hq hc⟩
  · exact ⟨_, sendStep_at_rel hq⟩
  · exact ⟨_, sendStep_at_dly hq⟩
  · exact ⟨s.hsStep (sendAfter ph), by simp [sendStep, hq]⟩

theorem recvStep_of_boundary (h : AtBoundary ph s) : ∃ t, recvStep s = .next t := by
  rcases h with ⟨hq, hc⟩ | hq | hq | hq
  · exact ⟨_, recvStep_at_end hq hc⟩
  · exact ⟨_, recvStep_at_rel hq⟩
  · exact ⟨_, recvStep_at_dly hq⟩
  · exact ⟨s.hsStep (recvAfter ph), by simp [recvStep, hq]⟩

/-- `SEND` answers a next state at each of its steps. -/
theorem send_runsTo (hinv : Inv s) (hp : s.port = none) (ho : s.op = .send) : ∃ t, RunsTo s t := by
  have hfit := hinv.seq
  cases hq : s.seq with
  | mode => exact ⟨sendModeStep s, .send, by simp [engineFetch, ho, hq], exec_send_at_mode ho hq hp⟩
  | phase ph st =>
    rcases atExchange_or_atBoundary hq with (⟨htx, hc⟩ | hrx) | hb
    · obtain ⟨b, -, h⟩ := send_runsTo_tx hinv ho htx hc
      exact ⟨_, h⟩
    · exact ⟨_, send_runsTo_rx hinv ho hrx⟩
    · obtain ⟨t, e⟩ := sendStep_of_boundary hb
      exact ⟨t, send_runsTo_boundary hp ho hb e⟩
  | idle | post | loop | clk | cfgw k => simp [seqFits, ho, hq] at hfit

/-- `RECV` answers a next state at each of its steps. -/
theorem recv_runsTo (hinv : Inv s) (hp : s.port = none) (ho : s.op = .recv) : ∃ t, RunsTo s t := by
  have hfit := hinv.seq
  cases hq : s.seq with
  | phase ph st =>
    rcases atExchange_or_atBoundary hq with (⟨htx, hc⟩ | hrx) | hb
    · obtain ⟨b, -, h⟩ := recv_runsTo_tx hinv ho htx hc
      exact ⟨_, h⟩
    · cases hv : s.env.rxAnswer with
      | none => exact ⟨_, recv_runsTo_stall hinv ho hrx hv⟩
      | some v => exact ⟨_, recv_runsTo_rx hinv ho hrx hv⟩
    · obtain ⟨t, e⟩ := recvStep_of_boundary hb
      exact ⟨t, recv_runsTo_boundary hp ho hb e⟩
  | post => exact ⟨recvPostStep s, .recv, by simp [engineFetch, ho, hq], exec_recv_at_post hp ho hq⟩
  | loop => exact ⟨recvLoopStep s, .recv, by simp [engineFetch, ho, hq], exec_recv_at_loop hp ho hq⟩
  | idle | mode | clk | cfgw k => simp [seqFits, ho, hq] at hfit

/-- `INIT` answers a next state at each of its steps. -/
theorem init_runsTo (hinv : Inv s) (hp : s.port = none) (ho : s.op = .init) : ∃ t, RunsTo s t := by
  have hfit := hinv.seq
  cases hq : s.seq with
  | clk => exact ⟨clkStep s, .init, engineFetch_init ho, exec_init_at_clk hp ho hq⟩
  | cfgw k => exact ⟨cfgStep s k, .init, engineFetch_init ho, exec_init_at_cfgw hp ho hq⟩
  | idle | mode | phase ph st | post | loop => simp [seqFits, ho, hq] at hfit

/-- In a state of the invariant the configuration receives (R218). -/
theorem supportsReceive_of_inv (hinv : Inv s) : s.par.supportsReceive = true := by
  have hpar := hinv.params
  simp only [Params.wf, paramsOk, Bool.and_eq_true] at hpar
  exact hpar.2

/-- In a state of the invariant a step answers a next state (R230). -/
theorem exists_step (hinv : Inv s) : ∃ t, step s = .next t := by
  have hrx : s.par.supportsReceive = true := supportsReceive_of_inv hinv
  cases hp : s.port with
  | some r =>
    obtain ⟨t, e, -⟩ := exec_command_port hp r.code
    exact ⟨t, (step_of_request hrx hp).trans e⟩
  | none =>
    cases hd : s.hostDue with
    | some p => exact ⟨_, step_of_hostDue hrx hp hd⟩
    | none =>
      have runs : (∃ t, RunsTo s.tick t) → ∃ t, step s = .next t := by
        rintro ⟨t, i, hf, e⟩
        exact ⟨t, (step_of_fetch hrx hp hd hf).trans e⟩
      cases ho : s.op with
      | none => exact ⟨_, step_of_idle hrx hp hd (by simp [engineFetch, ho, hinv.seq_of_idle ho])⟩
      | send => exact runs (send_runsTo hinv.tick hp ho)
      | recv => exact runs (recv_runsTo hinv.tick hp ho)
      | init => exact runs (init_runsTo hinv.tick hp ho)

end Sys2Proof.Machine

open Sys2Proof Sys2Proof.Machine

/-- Settles O49: the rows of the two operations at an exchange, and the operation itself at a boundary. -/
theorem fetchFollowsTheSequencer : Obligations.FetchFollowsTheSequencer := by
  unfold Obligations.FetchFollowsTheSequencer
  intro s hinv
  refine ⟨fun ho => by simp [engineFetch, ho, hinv.seq_of_idle ho], engineFetch_init,
    fun ho => ⟨fun h => ?_, fun h => ?_, fun h => ?_, fun hq => ?_⟩,
    fun ho => ⟨fun h => fetch_recv_hdr hinv ho h, fun h => ?_, fun h => ?_, fun v hq hv => fetch_recv_lenIn hinv ho hq hv,
      fun v hq hv => fetch_recv_payIn ho hq hv, fun h => ?_⟩, fun ph h => ?_⟩
  · exact (engineFetch_send_exchange ho h).trans (sendRow_hdr hinv ho h)
  · exact ⟨_, _, (engineFetch_send_exchange ho h).trans (sendRow_len hinv ho h), rfl⟩
  · have hex : AtExchange .pay s := by rwa [AtExchange, State.octetCount_pay_of_send ho]
    obtain ⟨d, hd⟩ := msg_getElem?_of_pay hinv ho hex
    exact ⟨d, hd, (engineFetch_send_exchange ho hex).trans (sendRow_pay hd)⟩
  · simp [engineFetch, ho, hq]
  · rcases h with ⟨hq, hc⟩ | ⟨hq, hn⟩
    · exact fetch_recv_fill ho (Or.inl rfl) hq hc
    · exact fetch_recv_fill_waiting ho (Or.inl rfl) hq hn
  · rcases h with ⟨hq, hc⟩ | ⟨hq, hn⟩
    · exact fetch_recv_fill ho (Or.inr rfl) hq (by rwa [State.octetCount_pay_of_recv ho])
    · exact fetch_recv_fill_waiting ho (Or.inr rfl) hq hn
  · rcases h with hq | hq <;> simp [engineFetch, ho, hq]
  · have hb : AtBoundary ph s := h.imp_left fun hend => ⟨hend.1, Nat.le_of_eq hend.2.symm⟩
    exact ⟨fun ho => engineFetch_send_boundary ho hb, fun ho => engineFetch_recv_boundary ho hb⟩

/-- Settles O52: a request, an act of the host and an idle step always answer, and every operation answers at each of its steps. -/
theorem invariantNeverStops : Obligations.InvariantNeverStops := by
  unfold Obligations.InvariantNeverStops
  intro s hinv
  obtain ⟨t, e⟩ := exists_step hinv
  rw [e]
  rfl

end

section
/-! Whole-machine rules (R22 to R24, R52, R63): what a step of any kind can do to the mode, the configuration, the destination and the trace. One
inversion of `exec` lists the effects a row can have; each rule is then a case analysis over that list. -/

namespace Sys2Proof.Machine

variable {s t : State}

/-- Everything a row can do when it answers a next state. -/
inductive RowEffect (s : State) : State → Prop
  | tx (ph : Phase) (b : Octet) : RowEffect s (s.txStep ph b)
  | drop (ph : Phase) : RowEffect s (s.rxDiscard ph)
  | stall : RowEffect s s.rxStall
  | capture (v : Octet) : RowEffect s (s.captureLen v)
  | store (ho : s.op = .recv) (hc : s.cnt.toNat < s.maxl.toNat) (v : Octet) :
      RowEffect s (State.rxTake { s with dst := s.dst.write s.cnt.toNat v } .pay v)
  | acceptInit (r : Request) (hp : s.port = some r) : RowEffect s (acceptInit r s.clearPort)
  | acceptSend (r : Request) (hp : s.port = some r) : RowEffect s (acceptSend r s.clearPort)
  | acceptRecv (r : Request) (hp : s.port = some r) : RowEffect s (acceptRecv r s.clearPort)
  | init {t : State} (hp : s.port = none) (ho : s.op = .init) (e : initStep s = .next t) : RowEffect s t
  | send {t : State} (hp : s.port = none) (ho : s.op = .send) (e : sendStep s = .next t) : RowEffect s t
  | recv {t : State} (hp : s.port = none) (ho : s.op = .recv) (e : recvStep s = .next t) : RowEffect s t
  | query : RowEffect s { s.clearPort with ret := some (.mode s.tmode) }

theorem rowEffect_of_sendFrame {o : Op} {ph : Phase} {bs : List Octet} (e : sendFrame o ph bs s = .next t) : RowEffect s t := by
  obtain ⟨-, ⟨b, -, -, rfl⟩ | ⟨-, rfl⟩⟩ := sendFrame_cases e
  · exact .tx ph b
  · exact .drop ph

theorem rowEffect_of_execFill (e : execFill s = .next t) : RowEffect s t := by
  obtain ⟨ho, ph, -, ⟨-, -, rfl⟩ | ⟨-, hr⟩⟩ := execFill_cases e
  · exact .tx ph _
  · rcases fillRead_cases hr with ⟨-, rfl⟩ | ⟨v, -, -, rfl⟩ | ⟨v, -, -, hc, rfl⟩
    · exact .stall
    · exact .capture v
    · exact .store ho hc v

theorem rowEffect_of_exec {i : Instr} (e : exec i s = .next t) : RowEffect s t := by
  cases i with
  | hdrSend => exact rowEffect_of_sendFrame e
  | hdrRecv => exact rowEffect_of_sendFrame e
  | lenOut l h => exact rowEffect_of_sendFrame e
  | lenIn u l h v m =>
    obtain ⟨-, -, b, -, rfl⟩ := execLenIn_cases e
    exact .capture b
  | payOut d =>
    obtain ⟨-, ⟨-, -, rfl⟩ | ⟨-, rfl⟩⟩ := execPayOut_cases e
    · exact .tx .pay d
    · exact .drop .pay
  | fill => exact rowEffect_of_execFill e
  | payIn d =>
    obtain ⟨ho, -, hc, rfl⟩ := execPayIn_cases e
    exact .store ho hc d
  | init =>
    rcases execInit_cases e with ⟨r, hp, rfl⟩ | ⟨hp, ho, hs⟩
    · exact .acceptInit r hp
    · exact .init hp ho hs
  | send =>
    rcases execSend_cases e with ⟨r, hp, rfl⟩ | ⟨hp, ho, hs⟩
    · exact .acceptSend r hp
    · exact .send hp ho hs
  | recv =>
    rcases execRecv_cases e with ⟨r, hp, rfl⟩ | ⟨hp, ho, hs⟩
    · exact .acceptRecv r hp
    · exact .recv hp ho hs
  | query =>
    cases e
    exact .query

/-- A step is an act of the host that is due, or a row after a waiting act may have counted the step, or no more than that count. -/
theorem step_effects (e : step s = .next t) :
    (∃ a rest, s.port = none ∧ s.hostDue = some (a, rest) ∧ t = s.hostStep a rest) ∨ t = s.tick ∨ RowEffect s t ∨ RowEffect s.tick t := by
  obtain ⟨-, ⟨r, -, he⟩ | h | ⟨-, -, -, ht⟩ | ⟨i, -, -, -, he⟩⟩ := step_cases e
  · exact Or.inr (Or.inr (Or.inl (rowEffect_of_exec he)))
  · exact Or.inl h
  · exact Or.inr (Or.inl ht)
  · exact Or.inr (Or.inr (Or.inr (rowEffect_of_exec he)))

/-! ## What the frames say of single fields -/

theorem OnlyLink.tmode (h : OnlyLink s t) : t.tmode = s.tmode := by rw [OnlyLink] at h; rw [h]

theorem OnlyLink.config (h : OnlyLink s t) : t.cfg = s.cfg ∧ t.cfgValid = s.cfgValid := by
  rw [OnlyLink] at h; rw [h]; exact ⟨rfl, rfl⟩

theorem OnlySend.config (h : OnlySend s t) : t.cfg = s.cfg ∧ t.cfgValid = s.cfgValid := by
  rw [OnlySend] at h; rw [h]; exact ⟨rfl, rfl⟩

theorem OnlyRecv.tmode (h : OnlyRecv s t) : t.tmode = s.tmode := by rw [OnlyRecv] at h; rw [h]

theorem OnlyRecv.config (h : OnlyRecv s t) : t.cfg = s.cfg ∧ t.cfgValid = s.cfgValid := by
  rw [OnlyRecv] at h; rw [h]; exact ⟨rfl, rfl⟩

theorem OnlyInit.tmode (h : OnlyInit s t) : t.tmode = s.tmode := by rw [OnlyInit] at h; rw [h]

/-! ## The mode -/

/-- Only the mode step of `SEND` writes `TMODE` (R168). -/
theorem RowEffect.tmode (h : RowEffect s t) : t.tmode = s.tmode ∨ (s.port = none ∧ s.op = .send ∧ s.seq = .mode) := by
  cases h with
  | tx ph b => exact Or.inl (onlyLink_txStep s ph b).tmode
  | drop ph => exact Or.inl (onlyLink_rxDiscard s ph).tmode
  | stall | capture v | store ho hc v | query => exact Or.inl rfl
  | acceptInit r hp => exact Or.inl (keepsInit_acceptInit r s).1.frame.tmode
  | acceptSend r hp => exact Or.inl (acceptSend_frame r s).2.1
  | acceptRecv r hp => exact Or.inl (acceptRecv_frame r s).tmode
  | init hp ho e => exact Or.inl (keepsInit_of_initStep e).frame.tmode
  | send hp ho e =>
    by_cases hq : s.seq = .mode
    · exact Or.inr ⟨hp, ho, hq⟩
    · exact Or.inl ((keepsSend_of_sendStep e).mode hq).1
  | recv hp ho e => exact Or.inl (keepsRecv_of_recvStep e).frame.tmode

/-- Of the host's acts only `rst` writes a register of the block (R220, R260). -/
theorem State.hostStep_block (s : State) (a : Act) (rest : List HostAct) : a = .rst ∨
    ((s.hostStep a rest).tmode = s.tmode ∧ (s.hostStep a rest).cfg = s.cfg ∧ (s.hostStep a rest).cfgValid = s.cfgValid ∧
      (s.hostStep a rest).dst = s.dst) := by
  rcases s.hostStep_cases a rest with ⟨r, -, e⟩ | ⟨r, -, -, e⟩ | ⟨r, -, -, e⟩ | ⟨ha, -⟩
  · exact Or.inr (by rw [e]; exact ⟨rfl, rfl, rfl, rfl⟩)
  · exact Or.inr (by rw [e]; exact ⟨rfl, rfl, rfl, rfl⟩)
  · exact Or.inr (by rw [e]; exact ⟨rfl, rfl, rfl, rfl⟩)
  · exact Or.inl ha

/-! ## The configuration -/

/-- Only a `CFGW` step of `INIT` writes the configuration (R24). -/
theorem RowEffect.config (h : RowEffect s t) :
    (t.cfg = s.cfg ∧ t.cfgValid = s.cfgValid) ∨ (s.port = none ∧ s.op = .init ∧ ∃ k, s.seq = .cfgw k) := by
  cases h with
  | tx ph b => exact Or.inl (onlyLink_txStep s ph b).config
  | drop ph => exact Or.inl (onlyLink_rxDiscard s ph).config
  | stall | capture v | store ho hc v | query => exact Or.inl ⟨rfl, rfl⟩
  | acceptInit r hp => exact Or.inl (keepsInit_acceptInit r s).2
  | acceptSend r hp => exact Or.inl (acceptSend_frame r s).1.config
  | acceptRecv r hp => exact Or.inl (acceptRecv_frame r s).config
  | init hp ho e => exact (keepsInit_of_initStep e).cfg.symm.imp_right fun hk => ⟨hp, ho, hk⟩
  | send hp ho e => exact Or.inl (keepsSend_of_sendStep e).frame.config
  | recv hp ho e => exact Or.inl (keepsRecv_of_recvStep e).frame.config

/-! ## The destination -/

/-- With nothing asked, a row writes the destination only in `RECV`, and there only below `MAXL` (R52). -/
theorem RowEffect.dst (h : RowEffect s t) (hp : s.port = none) (hwf : Memory.wf s.dst = true) :
    t.dst = s.dst ∨ (s.op = .recv ∧ ∀ j, s.maxl.toNat ≤ j → t.dst.read j = s.dst.read j) := by
  have noRequest {r : Request} : s.port ≠ some r := by simp [hp]
  cases h with
  | tx ph b => exact Or.inl (onlyLink_txStep s ph b).dst
  | drop ph => exact Or.inl (onlyLink_rxDiscard s ph).dst
  | stall | capture v | query => exact Or.inl rfl
  | store ho hc v => exact Or.inr ⟨ho, fun j hj => Memory.read_write_other v (Nat.ne_of_lt (Nat.lt_of_lt_of_le hc hj))⟩
  | acceptInit r hr => exact absurd hr noRequest
  | acceptSend r hr => exact absurd hr noRequest
  | acceptRecv r hr => exact absurd hr noRequest
  | init hp ho e => exact Or.inl (keepsInit_of_initStep e).frame.dst
  | send hp ho e => exact Or.inl (keepsSend_of_sendStep e).frame.dst
  | recv hp ho e => exact Or.inr ⟨ho, fun j hj => (keepsRecv_of_recvStep e).read_of_ge hwf hj⟩

/-! ## The trace -/

/-- At most one event is added to the trace (R12). -/
def AddsEvent (s t : State) : Prop := t.trace = s.trace ∨ ∃ e, t.trace = e :: s.trace

theorem addsEvent_txStep (s : State) (ph : Phase) (b : Octet) : AddsEvent s (s.txStep ph b) := by
  rcases s.txStep_cases ph b with ⟨-, e⟩ | ⟨-, e⟩ <;> rw [e]
  · exact Or.inr ⟨_, rfl⟩
  · exact Or.inl rfl

theorem addsEvent_rxDiscard (s : State) (ph : Phase) : AddsEvent s (s.rxDiscard ph) := by
  rcases s.rxDiscard_cases ph with ⟨v, -, e⟩ | ⟨-, e⟩ <;> rw [e]
  · exact Or.inr ⟨_, rfl⟩
  · exact Or.inl rfl

/-- A sample is one event, whatever the operation goes on with adds none. -/
theorem addsEvent_hsStep {after : State → State} (h : ∀ u, (after u).trace = u.trace) : AddsEvent s (s.hsStep after) := by
  rcases s.hsStep_cases after with ⟨-, e⟩ | ⟨-, e⟩ <;> rw [e]
  · exact Or.inr ⟨_, h _⟩
  · exact Or.inr ⟨_, rfl⟩

theorem sendAfter_trace (ph : Phase) (u : State) : (sendAfter ph u).trace = u.trace := by cases ph <;> rfl

theorem recvAfter_trace (ph : Phase) (u : State) : (recvAfter ph u).trace = u.trace := by cases ph <;> rfl

theorem addsEvent_of_sendStep (e : sendStep s = .next t) : AddsEvent s t := by
  rcases sendStep_cases e with ⟨-, rfl⟩ | ⟨ph, -, -, rfl⟩ | ⟨ph, -, rfl⟩ | ⟨ph, -, rfl⟩ | ⟨ph, -, rfl⟩
  · exact Or.inl rfl
  · exact Or.inl rfl
  · exact Or.inr ⟨_, rfl⟩
  · exact Or.inr ⟨_, rfl⟩
  · exact addsEvent_hsStep (sendAfter_trace ph)

theorem addsEvent_of_recvStep (e : recvStep s = .next t) : AddsEvent s t := by
  rcases recvStep_cases e with ⟨ph, -, -, rfl⟩ | ⟨ph, -, rfl⟩ | ⟨ph, -, rfl⟩ | ⟨ph, -, rfl⟩ | ⟨-, rfl⟩ | ⟨-, rfl⟩
  · exact Or.inl rfl
  · exact Or.inr ⟨_, rfl⟩
  · exact Or.inr ⟨_, rfl⟩
  · exact addsEvent_hsStep (recvAfter_trace ph)
  · exact Or.inl rfl
  · unfold recvLoopStep
    split <;> exact Or.inr ⟨_, rfl⟩

theorem KeepsInit.addsEvent (h : KeepsInit s t) : AddsEvent s t := by
  rcases h.trace with e | ⟨f, e⟩ | ⟨w, e⟩
  · exact Or.inl e
  · exact Or.inr ⟨_, e⟩
  · exact Or.inr ⟨_, e⟩

/-- Acceptance of a transfer has no event (R111, R131). -/
theorem acceptSend_trace (r : Request) (s : State) : (acceptSend r s).trace = s.trace := by
  rcases acceptSend_cases r s with ⟨-, e⟩ | ⟨-, -, e⟩ | ⟨-, -, -, e⟩ | ⟨-, -, -, e⟩ <;> rw [e] <;> rfl

theorem acceptRecv_trace (r : Request) (s : State) : (acceptRecv r s).trace = s.trace := by
  rcases acceptRecv_cases r s with ⟨-, e⟩ | ⟨-, -, e⟩ | ⟨-, -, e⟩ <;> rw [e] <;> rfl

/-- A row has at most one event (R12). -/
theorem RowEffect.addsEvent (h : RowEffect s t) : AddsEvent s t := by
  cases h with
  | tx ph b => exact addsEvent_txStep s ph b
  | drop ph => exact addsEvent_rxDiscard s ph
  | stall | query => exact Or.inl rfl
  | capture v | store ho hc v => exact Or.inr ⟨_, rfl⟩
  | acceptInit r hp => exact (keepsInit_acceptInit r s).1.addsEvent
  | acceptSend r hp => exact Or.inl (acceptSend_trace r s.clearPort)
  | acceptRecv r hp => exact Or.inl (acceptRecv_trace r s.clearPort)
  | init hp ho e => exact (keepsInit_of_initStep e).addsEvent
  | send hp ho e => exact addsEvent_of_sendStep e
  | recv hp ho e => exact addsEvent_of_recvStep e

/-- An act of the host has no event (R220, R260). -/
theorem State.hostStep_trace (s : State) (a : Act) (rest : List HostAct) : (s.hostStep a rest).trace = s.trace := by
  rcases s.hostStep_cases a rest with ⟨r, -, e⟩ | ⟨r, -, -, e⟩ | ⟨r, -, -, e⟩ | ⟨-, e⟩ <;> rw [e]
  unfold State.applyReset
  split <;> rfl

end Sys2Proof.Machine

open Sys2Proof Sys2Proof.Machine

/-- Settles O53: of all the effects only the mode step writes `TMODE`, and of the host's acts only `rst`. -/
theorem modeMovesOnlyAtTheModeStep : Obligations.ModeMovesOnlyAtTheModeStep := by
  unfold Obligations.ModeMovesOnlyAtTheModeStep
  intro s t e hne
  rcases step_effects e with ⟨a, rest, hp, hd, rfl⟩ | rfl | heff | heff
  · rcases s.hostStep_block a rest with rfl | ⟨hmode, -⟩
    · exact Or.inr ⟨hp, rest, hd⟩
    · exact absurd hmode hne
  · exact absurd rfl hne
  · exact Or.inl (heff.tmode.resolve_left hne)
  · exact Or.inl (heff.tmode.resolve_left hne)

/-- Settles O54: of all the effects only a write of `INIT` touches the configuration, and of the host's acts only `rst`. -/
theorem configurationMovesOnlyInInit : Obligations.ConfigurationMovesOnlyInInit := by
  unfold Obligations.ConfigurationMovesOnlyInInit
  intro s t e hne
  have moved : ¬ (t.cfg = s.cfg ∧ t.cfgValid = s.cfgValid) := by rwa [not_and_or]
  rcases step_effects e with ⟨a, rest, hp, hd, rfl⟩ | rfl | heff | heff
  · rcases s.hostStep_block a rest with rfl | ⟨-, hcfg, hvalid, -⟩
    · exact Or.inr ⟨hp, rest, hd⟩
    · exact absurd ⟨hcfg, hvalid⟩ moved
  · exact absurd ⟨rfl, rfl⟩ moved
  · exact Or.inl (heff.config.resolve_left moved)
  · exact Or.inl (heff.config.resolve_left moved)

/-- Settles O55: the store of a payload octet is below `MAXL`, and so is all that post-processing writes. -/
theorem destinationKeepsItsBound : Obligations.DestinationKeepsItsBound := by
  unfold Obligations.DestinationKeepsItsBound
  intro s t hinv hp hnorst e j hj
  have settled (h : t.dst = s.dst ∨ (s.op = .recv ∧ ∀ j, s.maxl.toNat ≤ j → t.dst.read j = s.dst.read j)) :
      t.dst.read j = s.dst.read j := by
    rcases h with hd | ⟨ho, hread⟩
    · rw [hd]
    · exact hread j (hj ho)
  rcases step_effects e with ⟨a, rest, -, hd, rfl⟩ | rfl | heff | heff
  · rcases s.hostStep_block a rest with rfl | ⟨-, -, -, hdst⟩
    · exact absurd hd (hnorst rest)
    · exact settled (Or.inl hdst)
  · rfl
  · exact settled (heff.dst hp hinv.dst)
  · exact settled (heff.dst hp hinv.dst)

/-- Settles O56: every effect adds at most one event, an act of the host none. -/
theorem atMostOneEventAStep : Obligations.AtMostOneEventAStep := by
  unfold Obligations.AtMostOneEventAStep
  intro s t e
  rcases step_effects e with ⟨a, rest, -, -, rfl⟩ | rfl | heff | heff
  · exact Or.inl (s.hostStep_trace a rest)
  · exact Or.inl rfl
  · exact heff.addsEvent
  · exact heff.addsEvent

end

section
/-! Working registers that the operation in progress has not written are never found (R38). Two states that differ only there are one state and the
same with other values in these registers; every step that does not read such a register commutes with the change of its value. -/

namespace Sys2Proof.Machine

variable {s t : State} {ph : Phase} {l n : Len15} {m : BitVec Config.maxlW} {c : BitVec 15} {f : FrameBuf}

/-! ## The change of unwritten registers -/

/-- `s` with other values in all five working registers. -/
def State.carryAll (s : State) (l n : Len15) (m : BitVec Config.maxlW) (c : BitVec 15) (f : FrameBuf) : State :=
  { s with len := l, nrd := n, maxl := m, cnt := c, fb := f }

/-- `s` with other values in `LEN`, `NRD` and `MAXL`, which no exchange and no boundary reads. -/
def State.carry (s : State) (l n : Len15) (m : BitVec Config.maxlW) : State := { s with len := l, nrd := n, maxl := m }

/-- The state itself agrees with itself. -/
theorem agreeOnWritten_refl (s : State) : agreeOnWritten s s := ⟨rfl, fun _ => rfl, fun _ => ⟨rfl, rfl⟩, fun _ => ⟨rfl, rfl⟩⟩

/-- While nothing is written yet, all five registers may differ. -/
theorem agreeOnWritten_carryAll (hlen : lenUnwritten s = true) (hframe : frameUnwritten s = true) (ho : s.op ≠ .recv) :
    agreeOnWritten s (s.carryAll l n m c f) :=
  ⟨rfl, by simp [hlen], by simp [hframe], fun h => absurd h ho⟩

/-- In `SEND`, the registers of `RECV` may differ. -/
theorem agreeOnWritten_carry_send (ho : s.op ≠ .recv) : agreeOnWritten s (s.carry s.len n m) :=
  ⟨rfl, fun _ => rfl, fun _ => ⟨rfl, rfl⟩, fun h => absurd h ho⟩

/-- In `RECV`, `LEN` may differ as long as the cycle has not written it. -/
theorem agreeOnWritten_carry_recv (h : lenUnwritten s = false → l = s.len) : agreeOnWritten s (s.carry l s.nrd s.maxl) :=
  ⟨rfl, h, fun _ => ⟨rfl, rfl⟩, fun _ => ⟨rfl, rfl⟩⟩

/-- With no operation that transfers, nothing is written. -/
theorem unwritten_of_op (ho : s.op = .none ∨ s.op = .init) : lenUnwritten s = true ∧ frameUnwritten s = true ∧ s.op ≠ .recv := by
  rcases ho with ho | ho <;> simp [lenUnwritten, frameUnwritten, ho]

/-! ## Steps that commute with the change -/

theorem txStep_carry (b : Octet) : (s.carry l n m).txStep ph b = (s.txStep ph b).carry l n m := by
  cases h : s.env.txReady <;> simp [State.txStep, State.carry, h]

theorem rxDiscard_carry : (s.carry l n m).rxDiscard ph = (s.rxDiscard ph).carry l n m := by
  cases h : s.env.rxAnswer <;> simp [State.rxDiscard, State.carry, h, State.rxTake, State.rxStall]

theorem hsStep_carry {after : State → State} (h : ∀ u : State, u.len = s.len → after (u.carry l n m) = (after u).carry l n m) :
    (s.carry l n m).hsStep after = (s.hsStep after).carry l n m := by
  cases hr : s.env.hsSample with
  | false =>
    rw [State.hsStep_of_not_ready hr, State.hsStep_of_not_ready (s := s.carry l n m) hr]
    rfl
  | true =>
    rw [State.hsStep_of_ready hr, State.hsStep_of_ready (s := s.carry l n m) hr]
    exact h { s.sample with cnt := 0 } rfl

/-- What follows a phase of `SEND` reads `LEN`, and neither `NRD` nor `MAXL`. -/
theorem sendAfter_carry (ph : Phase) (u : State) : sendAfter ph (u.carry u.len n m) = (sendAfter ph u).carry u.len n m := by
  cases ph <;> rfl

theorem sendFrame_carry {o : Op} {bs : List Octet} (e : sendFrame o ph bs s = .next t) :
    sendFrame o ph bs (s.carry l n m) = .next (t.carry l n m) := by
  obtain ⟨ho, ⟨b, hq, hb, rfl⟩ | ⟨hq, rfl⟩⟩ := sendFrame_cases e
  · rw [← txStep_carry]
    exact sendFrame_of_getElem? (s := s.carry l n m) ho hq hb
  · rw [← rxDiscard_carry]
    exact sendFrame_at_rx (s := s.carry l n m) ho hq

/-- The fetch looks at these registers only to count the octets of a phase. -/
theorem engineFetch_carry (h : ∀ ph, (s.carry l n m).octetCount ph = s.octetCount ph) : engineFetch (s.carry l n m) = engineFetch s := by
  unfold engineFetch
  simp only [h]
  rfl

/-! ## SEND after its mode step: `NRD` and `MAXL` are not read -/

theorem octetCount_carry_send (ho : s.op = .send) (ph : Phase) : (s.carry s.len n m).octetCount ph = s.octetCount ph := by
  cases ph <;> simp [State.octetCount, State.carry, ho]

theorem sendStep_carry (ho : s.op = .send) (hq : s.seq ≠ .mode) (e : sendStep s = .next t) :
    sendStep (s.carry s.len n m) = .next (t.carry s.len n m) := by
  rcases sendStep_cases e with ⟨h, -⟩ | ⟨ph, h, hc, rfl⟩ | ⟨ph, h, rfl⟩ | ⟨ph, h, rfl⟩ | ⟨ph, h, rfl⟩
  · exact absurd h hq
  · exact sendStep_at_end (s := s.carry s.len n m) h (by rw [octetCount_carry_send ho]; exact hc)
  · exact sendStep_at_rel (s := s.carry s.len n m) h
  · exact sendStep_at_dly (s := s.carry s.len n m) h
  · rw [← hsStep_carry (l := s.len) fun u hu => by rw [← hu]; exact sendAfter_carry ph u]
    have hseq : (s.carry s.len n m).seq = .phase ph .hs := h
    simp [sendStep, hseq]

/-- After a step of `SEND` past the mode step, the operation is `SEND` or none, and `LEN` is as it was. -/
theorem op_len_of_sendStep (ho : s.op = .send) (hq : s.seq ≠ .mode) (e : sendStep s = .next t) : t.op ≠ .recv ∧ t.len = s.len := by
  refine ⟨?_, ((keepsSend_of_sendStep e).mode hq).2⟩
  rcases sendStep_cases e with ⟨h, -⟩ | ⟨ph, -, -, rfl⟩ | ⟨ph, -, rfl⟩ | ⟨ph, -, rfl⟩ | ⟨ph, -, rfl⟩
  · exact absurd h hq
  · simp [ho]
  · simp [ho]
  · simp [ho]
  · rcases s.hsStep_cases (sendAfter ph) with ⟨-, e⟩ | ⟨-, e⟩ <;> rw [e]
    · cases ph <;> simp [sendAfter, ho]
    · simp [ho]

theorem OnlyLink.op (h : OnlyLink s t) : t.op = s.op := by rw [OnlyLink] at h; rw [h]

/-- A row of `SEND` past the mode step commutes with a change of `NRD` and `MAXL`. -/
theorem exec_carry_send {i : Instr} (hp : s.port = none) (ho : s.op = .send) (hq : s.seq ≠ .mode) (e : exec i s = .next t) :
    exec i (s.carry s.len n m) = .next (t.carry s.len n m) ∧ t.op ≠ .recv ∧ t.len = s.len := by
  have ofLink (h : OnlyLink s t) : t.op ≠ .recv ∧ t.len = s.len := ⟨by simp [h.op, ho], h.len⟩
  have noRequest {r : Request} : s.port ≠ some r := by simp [hp]
  have notRecv : s.op ≠ .recv := by simp [ho]
  have notInit : s.op ≠ .init := by simp [ho]
  cases i with
  | hdrSend => exact ⟨sendFrame_carry e, ofLink (onlyLink_of_sendFrame e)⟩
  | lenOut l h => exact ⟨sendFrame_carry e, ofLink (onlyLink_of_sendFrame e)⟩
  | payOut d =>
    refine ⟨?_, ofLink (onlyLink_of_execPayOut e)⟩
    obtain ⟨-, ⟨h, hc, rfl⟩ | ⟨h, rfl⟩⟩ := execPayOut_cases e
    · rw [← txStep_carry]
      exact execPayOut_at_tx (s := s.carry s.len n m) ho h (by rw [octetCount_carry_send ho]; exact hc) d
    · rw [← rxDiscard_carry]
      exact execPayOut_at_rx (s := s.carry s.len n m) ho h d
  | send =>
    rcases execSend_cases e with ⟨r, hr, -⟩ | ⟨-, -, hs⟩
    · exact absurd hr noRequest
    · exact ⟨(exec_send_eq (s := s.carry s.len n m) hp ho).trans (sendStep_carry ho hq hs), op_len_of_sendStep ho hq hs⟩
  | query => cases e; exact ⟨rfl, notRecv, rfl⟩
  | hdrRecv => exact absurd (sendFrame_cases e).1 notRecv
  | lenIn u l h v m => exact absurd (execLenIn_cases e).1 notRecv
  | fill => exact absurd (execFill_cases e).1 notRecv
  | payIn d => exact absurd (execPayIn_cases e).1 notRecv
  | init =>
    rcases execInit_cases e with ⟨r, hr, -⟩ | ⟨-, h, -⟩
    · exact absurd hr noRequest
    · exact absurd h notInit
  | recv =>
    rcases execRecv_cases e with ⟨r, hr, -⟩ | ⟨-, h, -⟩
    · exact absurd hr noRequest
    · exact absurd h notRecv

/-! ## RECV before the fourth octet of the Length frame: `LEN` is not read -/

theorem octetCount_carry_recv (ho : s.op = .recv) (ph : Phase) : (s.carry l s.nrd s.maxl).octetCount ph = s.octetCount ph := by
  cases ph <;> simp [State.octetCount, State.carry, ho]

/-- What a step of `RECV` gives with another `LEN` before it: the same, but for a `LEN` still unwritten. -/
def CarriesLen (l : Len15) (s t : State) (i : Instr) : Prop :=
  ∃ v, exec i (s.carry l s.nrd s.maxl) = .next v ∧ agreeOnWritten t v

/-- A step that commutes with the change, with `LEN` unwritten after it. -/
theorem carriesLen_of_commutes {i : Instr} (hlen : lenUnwritten t = true) (hn : t.nrd = s.nrd) (hm : t.maxl = s.maxl)
    (h : exec i (s.carry l s.nrd s.maxl) = .next (t.carry l s.nrd s.maxl)) : CarriesLen l s t i :=
  ⟨_, h, by rw [← hn, ← hm]; exact agreeOnWritten_carry_recv fun hw => by rw [hlen] at hw; cases hw⟩

theorem OnlyLink.recvRegisters (h : OnlyLink s t) : t.nrd = s.nrd ∧ t.maxl = s.maxl := by
  rw [OnlyLink] at h; rw [h]; exact ⟨rfl, rfl⟩

theorem lenUnwritten_hdr {st : Sub} (ho : s.op = .recv) (hq : s.seq = .phase .hdr st) : lenUnwritten s = true := by
  simp [lenUnwritten, ho, hq]

/-- In the Header phase the exchange drops what comes back. -/
theorem carriesLen_hdr_exchange {i : Instr} (ho : s.op = .recv) (h : AtExchange .hdr s) (hf : engineFetch s = .run i)
    (e : exec i s = .next t) : CarriesLen l s t i := by
  have hrow : fetchFrame .header s.fb.octets = .run i := by
    rcases h with ⟨hq, hc⟩ | hq
    · rw [← hf, engineFetch_recv_tx ho hq hc]; rfl
    · rw [← hf, engineFetch_recv_rx ho hq]; rfl
  have hplace : place i = .header := (decodeAt_eq_ok_iff.mp (fetchFrame_eq_run_iff.mp hrow)).1
  cases i with
  | hdrRecv =>
    have hlink : OnlyLink s t := onlyLink_of_sendFrame e
    have hseq : ∃ st, t.seq = .phase .hdr st := by
      obtain ⟨-, ⟨b, hq, -, rfl⟩ | ⟨hq, rfl⟩⟩ := sendFrame_cases e
      · rcases s.txStep_cases .hdr b with ⟨-, e⟩ | ⟨-, e⟩ <;> rw [e]
        · exact ⟨_, rfl⟩
        · exact ⟨_, hq⟩
      · rcases s.rxDiscard_cases .hdr with ⟨v, -, e⟩ | ⟨-, e⟩ <;> rw [e]
        · exact ⟨_, rfl⟩
        · exact ⟨_, hq⟩
    obtain ⟨st, hst⟩ := hseq
    obtain ⟨hn, hm⟩ := hlink.recvRegisters
    exact carriesLen_of_commutes (lenUnwritten_hdr (hlink.op.trans ho) hst) hn hm (sendFrame_carry e)
  | hdrSend =>
    have hsend := (sendFrame_cases e).1
    rw [ho] at hsend
    cases hsend
  | lenOut | lenIn | payOut | fill | payIn | init | send | recv | query => cases hplace

/-- At the boundary of the Header phase nothing reads `LEN`. -/
theorem carriesLen_hdr_boundary (hp : s.port = none) (ho : s.op = .recv) (h : AtBoundary .hdr s) (e : recvStep s = .next t) :
    CarriesLen l s t .recv := by
  have hexec : exec .recv (s.carry l s.nrd s.maxl) = recvStep (s.carry l s.nrd s.maxl) := exec_recv_eq hp ho
  rcases h with ⟨hq, hc⟩ | hq | hq | hq
  · rw [recvStep_at_end hq hc] at e
    cases e
    refine carriesLen_of_commutes (lenUnwritten_hdr ho rfl) rfl rfl (hexec.trans ?_)
    exact recvStep_at_end (s := s.carry l s.nrd s.maxl) hq hc
  · rw [recvStep_at_rel hq] at e
    cases e
    exact carriesLen_of_commutes (lenUnwritten_hdr ho rfl) rfl rfl (hexec.trans (recvStep_at_rel (s := s.carry l s.nrd s.maxl) hq))
  · rw [recvStep_at_dly hq] at e
    cases e
    exact carriesLen_of_commutes (lenUnwritten_hdr ho rfl) rfl rfl (hexec.trans (recvStep_at_dly (s := s.carry l s.nrd s.maxl) hq))
  · have hstep (u : State) (hu : u.seq = .phase .hdr .hs) : recvStep u = .next (u.hsStep (recvAfter .hdr)) := by simp [recvStep, hu]
    have hcarry : (s.carry l s.nrd s.maxl).hsStep (recvAfter .hdr) = (s.hsStep (recvAfter .hdr)).carry l s.nrd s.maxl :=
      hsStep_carry fun _ _ => rfl
    rw [hstep s hq] at e
    cases e
    refine carriesLen_of_commutes ?_ ?_ ?_ (hexec.trans ((hstep (s.carry l s.nrd s.maxl) hq).trans (by rw [hcarry])))
    all_goals rcases s.hsStep_cases (recvAfter .hdr) with ⟨-, e⟩ | ⟨-, e⟩ <;> rw [e]
    · simp [lenUnwritten, recvAfter, ho, Nat.blt_eq]
    · exact lenUnwritten_hdr ho hq
    all_goals rfl

/-- In the Length phase filler is sent whatever `LEN` holds. -/
theorem carriesLen_len_tx {i : Instr} (ho : s.op = .recv) (hq : s.seq = .phase .len .tx) (hc : s.cnt.toNat < 4) (hf : engineFetch s = .run i)
    (e : exec i s = .next t) : CarriesLen l s t i := by
  rw [fetch_recv_fill ho (Or.inl rfl) hq hc] at hf
  cases hf
  have hfill (u : State) (hu : u.op = .recv) (hq : u.seq = .phase .len .tx) (hc : u.cnt.toNat < 4) :
      exec .fill u = .next (u.txStep .len Config.filler) := execFill_at_tx hu (Or.inl rfl) hq hc
  rw [hfill s ho hq hc] at e
  cases e
  obtain ⟨hn, hm⟩ := (onlyLink_txStep s .len Config.filler).recvRegisters
  refine carriesLen_of_commutes ?_ hn hm (by rw [← txStep_carry]; exact hfill _ ho hq hc)
  rcases s.txStep_cases .len Config.filler with ⟨-, e⟩ | ⟨-, e⟩ <;> rw [e]
  · simp [lenUnwritten, ho]
  · simpa [lenUnwritten, ho, hq, Nat.blt_eq] using hc

/-- The capture of an octet of the Length frame reads no `LEN`, and the fourth writes it. -/
theorem agreeOnWritten_captureLen (ho : s.op = .recv) (hc : s.cnt.toNat < 4) (v : Octet) :
    agreeOnWritten (s.captureLen v) ((s.carry l s.nrd s.maxl).captureLen v) := by
  by_cases h3 : s.cnt.toNat = 3
  · have hsame : (s.carry l s.nrd s.maxl).captureLen v = s.captureLen v := by
      simp [State.captureLen, State.carry, State.rxTake, h3]
    rw [hsame]
    exact agreeOnWritten_refl _
  · have hcommutes : (s.carry l s.nrd s.maxl).captureLen v = (s.captureLen v).carry l s.nrd s.maxl := by
      simp [State.captureLen, State.carry, State.rxTake, h3]
    have hnext : (s.cnt + 1).toNat < 4 := by
      rw [BitVec.toNat_add]
      exact Nat.lt_of_le_of_lt (Nat.mod_le _ _) (by simp; omega)
    have hunwritten : lenUnwritten (s.captureLen v) = true := by
      simp only [lenUnwritten, State.captureLen_op, ho, State.captureLen_seq, State.captureLen_cnt, Nat.blt_eq.mpr hnext]
    rw [hcommutes]
    exact agreeOnWritten_carry_recv (s := s.captureLen v) (by simp [hunwritten])

/-- In the Length phase an octet is captured, or awaited, whatever `LEN` holds. -/
theorem carriesLen_len_rx {i : Instr} (ho : s.op = .recv) (hq : s.seq = .phase .len .rx) (hf : engineFetch s = .run i)
    (e : exec i s = .next t) : CarriesLen l s t i := by
  cases hv : s.env.rxAnswer with
  | none =>
    rw [fetch_recv_fill_waiting ho (Or.inl rfl) hq hv] at hf
    cases hf
    rw [MasterRow.fillLen.exec_at_rx_of_none ho hq hv] at e
    cases e
    exact carriesLen_of_commutes (by simp [lenUnwritten, ho, hq]) rfl rfl
      (MasterRow.fillLen.exec_at_rx_of_none (s := s.carry l s.nrd s.maxl) ho hq hv)
  | some v =>
    obtain ⟨u, k, h, r, w, hrow, -⟩ := fetchFrame_lengthIn (s.fb.set s.cnt.toNat v)
    have hfetch : engineFetch s = .run (.lenIn u k h r w) := by
      rw [engineFetch_recv_rx ho hq]
      simpa [recvReadRow, hv] using hrow
    rw [hfetch] at hf
    cases hf
    obtain ⟨-, -, b, hb, rfl⟩ := execLenIn_cases e
    obtain ⟨hc, -⟩ := List.getElem?_eq_some_iff.mp hb
    exact ⟨_, execLenIn_at_rx (s := s.carry l s.nrd s.maxl) ho hq hb, agreeOnWritten_captureLen ho hc b⟩

/-- While `LEN` is unwritten in a cycle, no row of `RECV` reads it. -/
theorem carriesLen_of_exec {i : Instr} (hp : s.port = none) (ho : s.op = .recv) (hw : lenUnwritten s = true) (hf : engineFetch s = .run i)
    (e : exec i s = .next t) : CarriesLen l s t i := by
  have hseq : (∃ st, s.seq = .phase .hdr st) ∨ (s.seq = .phase .len .tx ∧ s.cnt.toNat < 4) ∨ s.seq = .phase .len .rx := by
    simp only [lenUnwritten, ho] at hw
    split at hw
    · next st hq => exact Or.inl ⟨st, hq⟩
    · next hq => exact Or.inr (Or.inl ⟨hq, Nat.blt_eq.mp hw⟩)
    · next hq => exact Or.inr (Or.inr hq)
    · cases hw
  rcases hseq with ⟨st, hq⟩ | ⟨hq, hc⟩ | hq
  · rcases atExchange_or_atBoundary hq with hx | hb
    · exact carriesLen_hdr_exchange ho hx hf e
    · rw [engineFetch_recv_boundary ho hb] at hf
      cases hf
      exact carriesLen_hdr_boundary hp ho hb ((exec_recv_eq hp ho).symm.trans e)
  · exact carriesLen_len_tx ho hq hc hf e
  · exact carriesLen_len_rx ho hq hf e

/-! ## Steps that write none of the registers, or all they leave -/

theorem initStep_carryAll (e : initStep s = .next t) : initStep (s.carryAll l n m c f) = .next (t.carryAll l n m c f) := by
  rcases initStep_cases e with ⟨hq, rfl⟩ | ⟨k, hq, rfl⟩
  · have hseq : (s.carryAll l n m c f).seq = .clk := hq
    have hclk : clkStep (s.carryAll l n m c f) = (clkStep s).carryAll l n m c f := by
      rcases clkStep_cases s with ⟨d, hd, e⟩ | ⟨r, hd, e⟩ <;> rw [e]
      · exact clkStep_of_ok (s := s.carryAll l n m c f) hd
      · exact clkStep_of_error (s := s.carryAll l n m c f) hd
    simp [initStep, hseq, hclk]
  · have hseq : (s.carryAll l n m c f).seq = .cfgw k := hq
    have hcfg : cfgStep (s.carryAll l n m c f) k = (cfgStep s k).carryAll l n m c f := by
      unfold cfgStep
      split <;> rfl
    simp [initStep, hseq, hcfg]

/-- After a step of `INIT` the operation is `INIT` or none. -/
theorem op_of_initStep (ho : s.op = .init) (e : initStep s = .next t) : t.op = .none ∨ t.op = .init := by
  rcases initStep_cases e with ⟨-, rfl⟩ | ⟨k, -, rfl⟩
  · rcases clkStep_cases s with ⟨d, -, e⟩ | ⟨r, -, e⟩ <;> rw [e]
    · exact Or.inr ho
    · exact Or.inl rfl
  · unfold cfgStep
    split
    · exact Or.inl rfl
    · exact Or.inr ho

/-! ## Acceptance and the host -/

/-- Acceptance looks at none of the registers; what it writes of them it writes in either state. -/
theorem acceptSend_carryAll (r : Request) : acceptSend r (s.carryAll l n m c f) = (acceptSend r s).carryAll l n m c f := by
  unfold acceptSend
  simp only [apply_ite (fun u : State => u.carryAll l n m c f)]
  rfl

theorem acceptInit_carryAll (r : Request) : acceptInit r (s.carryAll l n m c f) = (acceptInit r s).carryAll l n m c f := by
  unfold acceptInit
  simp only [apply_ite (fun u : State => u.carryAll l n m c f)]
  rfl

/-- A request that is taken starts from nothing written; one that is turned away leaves what is written as it was. -/
theorem agreeOnWritten_acceptSend (h : agreeOnWritten s (s.carryAll l n m c f)) (r : Request) :
    agreeOnWritten (acceptSend r s) (acceptSend r (s.carryAll l n m c f)) := by
  rw [acceptSend_carryAll]
  rcases acceptSend_cases r s with ⟨-, e⟩ | ⟨-, -, e⟩ | ⟨-, -, -, e⟩ | ⟨-, -, -, e⟩ <;> rw [e]
  · exact ⟨rfl, h.2⟩
  · exact ⟨rfl, h.2⟩
  · exact ⟨rfl, h.2⟩
  · exact agreeOnWritten_carryAll rfl rfl nofun

theorem agreeOnWritten_acceptInit (h : agreeOnWritten s (s.carryAll l n m c f)) (r : Request) :
    agreeOnWritten (acceptInit r s) (acceptInit r (s.carryAll l n m c f)) := by
  rw [acceptInit_carryAll]
  rcases acceptInit_cases r s with ⟨-, e⟩ | ⟨-, -, e⟩ | ⟨-, -, e⟩ <;> rw [e]
  · exact ⟨rfl, h.2⟩
  · exact ⟨rfl, h.2⟩
  · exact agreeOnWritten_carryAll rfl rfl nofun

/-- A `RECV` that is taken has written all but `LEN` (R131). -/
theorem agreeOnWritten_acceptRecv (h : agreeOnWritten s (s.carryAll l n m c f)) (r : Request) :
    agreeOnWritten (acceptRecv r s) (acceptRecv r (s.carryAll l n m c f)) := by
  have hcases := acceptRecv_cases r (s.carryAll l n m c f)
  rcases acceptRecv_cases r s with ⟨hb, e⟩ | ⟨hb, hv, e⟩ | ⟨hb, hv, e⟩
  · have e' : acceptRecv r (s.carryAll l n m c f) = (s.carryAll l n m c f).mark .busy := if_pos hb
    rw [e, e']
    exact ⟨rfl, h.2⟩
  · have e' : acceptRecv r (s.carryAll l n m c f) = (s.carryAll l n m c f).mark .notInitialised := by
      rcases hcases with ⟨hb', -⟩ | ⟨-, -, e'⟩ | ⟨-, hv', -⟩
      · exact absurd (hb.symm.trans hb') nofun
      · exact e'
      · exact absurd (hv.symm.trans hv') nofun
    rw [e, e']
    exact ⟨rfl, h.2⟩
  · have e' : acceptRecv r (s.carryAll l n m c f) = (acceptRecv r s).carry l 0 r.maxLen := by
      rcases hcases with ⟨hb', -⟩ | ⟨-, hv', -⟩ | ⟨-, -, e'⟩
      · exact absurd (hb.symm.trans hb') nofun
      · exact absurd (hv.symm.trans hv') nofun
      · rw [e', e]
        rfl
    rw [e', e]
    exact agreeOnWritten_carry_recv (s := State.startCycle _) nofun

/-- The operation on the command port is taken or turned away alike. -/
theorem agreeOnWritten_command {r : Request} (h : agreeOnWritten s (s.carryAll l n m c f)) (hp : s.port = some r) (k : BitVec 2)
    (e : exec (decodeCommand k) s = .next t) :
    ∃ v, exec (decodeCommand k) (s.carryAll l n m c f) = .next v ∧ agreeOnWritten t v := by
  have hp' : (s.carryAll l n m c f).port = some r := hp
  have hclear : agreeOnWritten s.clearPort (s.clearPort.carryAll l n m c f) := ⟨rfl, h.2⟩
  rcases decodeCommand_eq k with hk | hk | hk | hk <;> rw [hk] at e ⊢
  · rw [exec_init_of_request hp] at e
    cases e
    exact ⟨_, exec_init_of_request hp', agreeOnWritten_acceptInit hclear r⟩
  · rw [exec_send_of_request hp] at e
    cases e
    exact ⟨_, exec_send_of_request hp', agreeOnWritten_acceptSend hclear r⟩
  · rw [exec_recv_of_request hp] at e
    cases e
    exact ⟨_, exec_recv_of_request hp', agreeOnWritten_acceptRecv hclear r⟩
  · cases e
    exact ⟨_, rfl, rfl, h.2⟩

/-- `rst` writes all five registers; no other act of the host touches one. -/
theorem agreeOnWritten_hostStep (h : agreeOnWritten s (s.carryAll l n m c f)) (a : Act) (rest : List HostAct) :
    agreeOnWritten (s.hostStep a rest) ((s.carryAll l n m c f).hostStep a rest) := by
  cases a with
  | issue r => exact ⟨rfl, h.2⟩
  | recvUnlessOn r =>
    simp only [State.hostStep]
    by_cases hr : s.ret = some (.mode .on)
    · rw [if_pos hr, if_pos (c := (s.carryAll l n m c f).ret = _) hr]
      exact ⟨rfl, h.2⟩
    · rw [if_neg hr, if_neg (c := (s.carryAll l n m c f).ret = _) hr]
      exact ⟨rfl, h.2⟩
  | rst =>
    have hsame : (s.carryAll l n m c f).hostStep .rst rest = s.hostStep .rst rest := by
      simp only [State.hostStep, State.applyReset]
      exact ite_congr rfl (fun _ => rfl) (fun _ => rfl)
    rw [hsame]
    exact agreeOnWritten_refl _

/-! ## One step -/

theorem fetchFrame_ne_idle (p : Place) (bs : List Octet) : fetchFrame p bs ≠ .idle := by
  unfold fetchFrame
  split <;> nofun

theorem sendRow_ne_idle (s : State) (ph : Phase) : sendRow s ph ≠ .idle := by
  cases ph with
  | hdr => exact fetchFrame_ne_idle _ _
  | len => exact fetchFrame_ne_idle _ _
  | pay =>
    simp only [sendRow]
    split
    · exact fetchFrame_ne_idle _ _
    · nofun

theorem recvRow_ne_idle (s : State) (ph : Phase) : recvRow s ph ≠ .idle := by
  cases ph <;> simp only [recvRow] <;> exact fetchFrame_ne_idle _ _

theorem recvReadRow_ne_idle (s : State) (ph : Phase) : recvReadRow s ph ≠ .idle := by
  cases hv : s.env.rxAnswer with
  | none => rw [recvReadRow_of_none hv]; exact recvRow_ne_idle s ph
  | some v =>
    cases ph with
    | hdr => exact fetchFrame_ne_idle _ _
    | len | pay =>
      simp only [recvReadRow, hv]
      exact fetchFrame_ne_idle _ _

/-- There is nothing to do only while the block is idle (R260). -/
theorem idle_of_engineFetch (hf : engineFetch s = .idle) : s.op = .none ∧ s.seq = .idle := by
  cases ho : s.op with
  | none =>
    simp only [engineFetch, ho] at hf
    split at hf
    · next hq => exact ⟨rfl, hq⟩
    · cases hf
  | init => rw [engineFetch_init ho] at hf; cases hf
  | send =>
    simp only [engineFetch, ho] at hf
    split at hf
    · split at hf
      · exact absurd hf (sendRow_ne_idle _ _)
      · cases hf
    · exact absurd hf (sendRow_ne_idle _ _)
    · cases hf
  | recv =>
    simp only [engineFetch, ho] at hf
    split at hf
    · split at hf
      · exact absurd hf (recvRow_ne_idle _ _)
      · cases hf
    · exact absurd hf (recvReadRow_ne_idle _ _)
    · cases hf

/-- The engine takes the same step in two states that agree on what is written. -/
theorem agreeOnWritten_engine {i : Instr} (h : agreeOnWritten s (s.carryAll l n m c f)) (hp : s.port = none)
    (hf : engineFetch s = .run i) (e : exec i s = .next t) :
    ∃ j v, engineFetch (s.carryAll l n m c f) = .run j ∧ exec j (s.carryAll l n m c f) = .next v ∧ agreeOnWritten t v := by
  obtain ⟨-, hlen, hframe, hrecv⟩ := h
  cases ho : s.op with
  | none =>
    simp only [engineFetch, ho] at hf
    split at hf <;> cases hf
  | init =>
    rw [engineFetch_init ho] at hf
    cases hf
    rw [exec_init_eq hp ho] at e
    obtain ⟨hl, hw, hr⟩ := unwritten_of_op (op_of_initStep ho e)
    exact ⟨.init, _, engineFetch_init (s := s.carryAll l n m c f) ho,
      (exec_init_eq (s := s.carryAll l n m c f) hp ho).trans (initStep_carryAll e), agreeOnWritten_carryAll hl hw hr⟩
  | send =>
    by_cases hq : s.seq = .mode
    · have hfetch (u : State) (ho : u.op = .send) (hq : u.seq = .mode) : engineFetch u = .run .send := by simp [engineFetch, ho, hq]
      rw [hfetch s ho hq] at hf
      cases hf
      rw [exec_send_at_mode ho hq hp] at e
      cases e
      have hnext : agreeOnWritten (sendModeStep s) ((sendModeStep s).carry (sendModeStep s).len n m) :=
        agreeOnWritten_carry_send (by simp [sendModeStep, ho])
      exact ⟨.send, _, hfetch (s.carryAll l n m c f) ho hq, exec_send_at_mode (s := s.carryAll l n m c f) ho hq hp, hnext⟩
    · obtain ⟨rfl, rfl, rfl⟩ : l = s.len ∧ c = s.cnt ∧ f = s.fb :=
        ⟨hlen (by simp [lenUnwritten, ho, hq]), hframe (by simp [frameUnwritten, ho, hq])⟩
      obtain ⟨hexec, hop, hl⟩ := exec_carry_send (n := n) (m := m) hp ho hq e
      refine ⟨i, _, (engineFetch_carry (octetCount_carry_send ho)).trans hf, hexec, ?_⟩
      rw [← hl]
      exact agreeOnWritten_carry_send hop
  | recv =>
    obtain ⟨rfl, rfl⟩ : n = s.nrd ∧ m = s.maxl := hrecv ho
    obtain ⟨rfl, rfl⟩ : c = s.cnt ∧ f = s.fb := hframe (by simp [frameUnwritten, ho])
    cases hw : lenUnwritten s with
    | false =>
      obtain rfl : l = s.len := hlen hw
      exact ⟨i, t, hf, e, agreeOnWritten_refl t⟩
    | true =>
      obtain ⟨v, hexec, hagree⟩ := carriesLen_of_exec (l := l) hp ho hw hf e
      exact ⟨i, v, (engineFetch_carry (octetCount_carry_recv ho)).trans hf, hexec, hagree⟩

/-- Two states that agree on what is written take the same step. -/
theorem agreeOnWritten_step (h : agreeOnWritten s (s.carryAll l n m c f)) (e : step s = .next t) :
    ∃ v, step (s.carryAll l n m c f) = .next v ∧ agreeOnWritten t v := by
  obtain ⟨hrx, ⟨r, hp, he⟩ | ⟨a, rest, hp, hd, rfl⟩ | ⟨hp, hd, hf, rfl⟩ | ⟨i, hp, hd, hf, he⟩⟩ := step_cases e
  · obtain ⟨v, hv, hagree⟩ := agreeOnWritten_command h hp r.code he
    exact ⟨v, (step_of_request (s := s.carryAll l n m c f) hrx hp).trans hv, hagree⟩
  · exact ⟨_, step_of_hostDue (s := s.carryAll l n m c f) hrx hp hd, agreeOnWritten_hostStep h a rest⟩
  · have hidle : s.op = .none ∧ s.seq = .idle := idle_of_engineFetch hf
    have hf' : engineFetch (s.carryAll l n m c f) = .idle := by
      have ho' : (s.carryAll l n m c f).op = .none := hidle.1
      have hq' : (s.carryAll l n m c f).seq = .idle := hidle.2
      simp [engineFetch, ho', hq']
    exact ⟨_, step_of_idle (s := s.carryAll l n m c f) hrx hp hd hf', rfl, h.2⟩
  · have htick : agreeOnWritten s.tick (s.tick.carryAll l n m c f) := ⟨rfl, h.2⟩
    obtain ⟨j, v, hj, hv, hagree⟩ := agreeOnWritten_engine htick hp hf he
    exact ⟨v, (step_of_fetch (s := s.carryAll l n m c f) hrx hp hd hj).trans hv, hagree⟩

/-! ## From the command port -/

/-- At `MODE`, with nothing asked, the machine takes the mode step of `SEND` (R112). -/
theorem step_at_mode (hrx : s.par.supportsReceive = true) (hp : s.port = none) (hh : s.host = []) (ho : s.op = .send) (hq : s.seq = .mode) :
    step s = .next (sendModeStep s) :=
  (step_eq_exec hrx hp hh (by simp [engineFetch, ho, hq])).trans (exec_send_at_mode ho hq hp)

/-- A `SEND` that is taken is past its mode step after two steps (R111, R112). -/
theorem run_two_of_send_request {r : Request} (hrx : s.par.supportsReceive = true) (ho : s.op = .none) (hv : s.cfgValid = true)
    (hh : s.host = []) (hp : s.port = some r) (hwf : r.wf = true) (hcode : r.code = 0b01) :
    Host.Core.run Sys2Proof.core 2 s = .next (sendModeStep { s with port := none, op := .send, seq := .mode, msg := r.msg }) := by
  have htaken : step s = .next { s with port := none, op := .send, seq := .mode, msg := r.msg } := by
    rw [step_of_request hrx hp, hcode]
    exact (sendIsTakenOrTurnedAway s r hp).1 (Request.wf_iff.mp hwf) ho hv
  have hmode : step { s with port := none, op := .send, seq := .mode, msg := r.msg } =
      .next (sendModeStep { s with port := none, op := .send, seq := .mode, msg := r.msg }) :=
    step_at_mode (s := { s with port := none, op := .send, seq := .mode, msg := r.msg }) hrx rfl hh rfl rfl
  exact (run_succ_of_step htaken).trans (run_succ_of_step hmode)

/-- A `RECV` that is taken is in its first cycle after one step (R131). -/
theorem run_one_of_recv_request {r : Request} (hrx : s.par.supportsReceive = true) (ho : s.op = .none) (hv : s.cfgValid = true)
    (hp : s.port = some r) (hcode : r.code = 0b10) :
    Host.Core.run Sys2Proof.core 1 s =
      .next (State.startCycle { s.clearPort with op := .recv, maxl := r.maxLen, dst := lentDst r s }) := by
  have hbusy : s.clearPort.busy = false := busy_eq_false_iff.mpr ho
  have htaken : step s = .next (State.startCycle { s.clearPort with op := .recv, maxl := r.maxLen, dst := lentDst r s }) := by
    rw [step_of_request hrx hp, hcode]
    refine (exec_recv_of_request hp).trans ?_
    simp [acceptRecv, hbusy, hv, lentDst]
  exact run_succ_of_step htaken

end Sys2Proof.Machine

open Sys2Proof Sys2Proof.Machine

/-- Settles O57: the step by `agreeOnWritten_step`; from the port, the two runs end in states that are written out. -/
theorem workingRegistersCarryNothing : Obligations.WorkingRegistersCarryNothing := by
  unfold Obligations.WorkingRegistersCarryNothing
  refine ⟨fun s u t h e => ?_, fun s r len nrd maxl cnt fb hrx ho hv hh hp hwf => ⟨fun hcode => ?_, fun hcode => ?_⟩⟩
  · have hu : u = s.carryAll u.len u.nrd u.maxl u.cnt u.fb := h.1
    rw [hu] at h ⊢
    exact agreeOnWritten_step h e
  · exact ⟨_, run_two_of_send_request hrx ho hv hh hp hwf hcode,
      run_two_of_send_request (s := s.carryAll len nrd maxl cnt fb) hrx ho hv hh hp hwf hcode⟩
  · exact ⟨_, run_one_of_recv_request hrx ho hv hp hcode,
      run_one_of_recv_request (s := s.carryAll len nrd maxl cnt fb) hrx ho hv hp hcode⟩

end

section
/-! Whole phases of a transfer against a slave that is ready at once (R175, R176, R186): the exchanges of a phase, then its boundary, as runs whose
end state is written out. `SEND` and `RECV` share these; they differ in the octets they send and in what they do with those that come back. -/

namespace Sys2Proof.Machine

variable {s t : State} {ph : Phase} {txs : List Bool} {rxs : List (Option Octet)} {hss : List Bool} {v : Octet}

/-! ## Runs -/

/-- A run of `a + b` steps is one of `a` and then one of `b`. -/
theorem run_trans {a b : Nat} (h : Host.Core.run Sys2Proof.core a s = .next t) :
    Host.Core.run Sys2Proof.core (a + b) s = Host.Core.run Sys2Proof.core b t := by
  induction a generalizing s with
  | zero => cases h; rw [Nat.zero_add]
  | succ a ih =>
    obtain ⟨u, hstep, hrun⟩ := run_succ_eq_next h
    rw [Nat.succ_add, run_succ_of_step hstep, ih hrun]

/-- A run of one step. -/
theorem run_one (e : step s = .next t) : Host.Core.run Sys2Proof.core 1 s = .next t := run_succ_of_step e

/-- The invariant holds along every run. -/
theorem inv_of_run {k : Nat} (hinv : Inv s) (e : Host.Core.run Sys2Proof.core k s = .next t) : Inv t := by
  induction k generalizing s with
  | zero => cases e; exact hinv
  | succ k ih =>
    obtain ⟨u, hstep, hrun⟩ := run_succ_eq_next e
    exact ih (hinv.of_step hstep) hrun

/-- A state of the invariant in which nothing is asked of the block. -/
structure Undisturbed (s : State) : Prop where
  inv : Inv s
  port : s.port = none
  host : s.host = []

/-- The step is then the row that is fetched. -/
theorem Undisturbed.step_of_runsTo (h : Undisturbed s) (hr : RunsTo s t) : step s = .next t := by
  obtain ⟨i, hf, e⟩ := hr
  exact (step_eq_exec (supportsReceive_of_inv h.inv) h.port h.host hf).trans e

/-- Away from the mode step, what is undisturbed stays so along every run. -/
theorem Undisturbed.of_run {k : Nat} (h : Undisturbed s) (hq : s.seq ≠ .mode) (e : Host.Core.run Sys2Proof.core k s = .next t) :
    Undisturbed t := by
  have keeps : KeepsMode s t := keepsMode_of_run h.port h.host hq e
  exact ⟨inv_of_run h.inv e, keeps.port.trans h.port, keeps.host.trans h.host⟩

theorem Undisturbed.of_step (h : Undisturbed s) (hq : s.seq ≠ .mode) (e : step s = .next t) : Undisturbed t := h.of_run hq (run_one e)

/-! ## One exchange -/

/-- The octets the operation in progress sends in a phase. -/
def phaseOctets (s : State) (ph : Phase) : List Octet := if s.op = .recv then recvOctets s ph else sendOctets s ph

/-- What the operation in progress does with an octet that came back. -/
def takeOctet (s : State) (ph : Phase) (v : Octet) : State := if s.op = .recv then recvTake s ph v else s.rxTake ph v

/-- At a TX step with octets left, octet `CNT` of the phase is sent. -/
theorem Undisturbed.step_tx (h : Undisturbed s) (ho : s.op = .send ∨ s.op = .recv) (hq : s.seq = .phase ph .tx)
    (hc : s.cnt.toNat < s.octetCount ph) : ∃ b, (phaseOctets s ph)[s.cnt.toNat]? = some b ∧ step s = .next (s.txStep ph b) := by
  rcases ho with ho | ho
  · obtain ⟨b, hb, hr⟩ := send_runsTo_tx h.inv ho hq hc
    exact ⟨b, by simpa [phaseOctets, ho] using hb, h.step_of_runsTo hr⟩
  · obtain ⟨b, hb, hr⟩ := recv_runsTo_tx h.inv ho hq hc
    exact ⟨b, by simpa [phaseOctets, ho] using hb, h.step_of_runsTo hr⟩

/-- At an RX step with a valid octet, the octet is taken. -/
theorem Undisturbed.step_rx (h : Undisturbed s) (ho : s.op = .send ∨ s.op = .recv) (hq : s.seq = .phase ph .rx)
    (hv : s.env.rxAnswer = some v) : step s = .next (takeOctet s ph v) := by
  rcases ho with ho | ho
  · have hr : RunsTo s (s.rxDiscard ph) := send_runsTo_rx h.inv ho hq
    rw [State.rxDiscard_of_some hv] at hr
    simpa [takeOctet, ho] using h.step_of_runsTo hr
  · simpa [takeOctet, ho] using h.step_of_runsTo (recv_runsTo_rx h.inv ho hq hv)

/-- `s` after octet `b` was sent. -/
def State.sent (s : State) (ph : Phase) (b : Octet) (txs : List Bool) : State :=
  { s with env := { s.env with tx := txs }, trace := .tx b :: s.trace, csAct := true, seq := .phase ph .rx }

/-- A free slot at once, and an octet at once: an exchange takes two steps (R175). -/
theorem Undisturbed.run_exchange (h : Undisturbed s) (ho : s.op = .send ∨ s.op = .recv) (hq : s.seq = .phase ph .tx)
    (hc : s.cnt.toNat < s.octetCount ph) (htx : s.env.tx = true :: txs) (hrx : s.env.rx = some v :: rxs) :
    ∃ b, (phaseOctets s ph)[s.cnt.toNat]? = some b ∧
      Host.Core.run Sys2Proof.core 2 s = .next (takeOctet (s.sent ph b txs) ph v) := by
  obtain ⟨b, hb, hstep⟩ := h.step_tx ho hq hc
  have hready : s.env.txReady = true := by simp [Env.txReady, htx]
  have hsent : s.txStep ph b = s.sent ph b txs := by
    rw [State.txStep_of_ready hready]
    simp [State.sent, Env.popTx, htx]
  rw [hsent] at hstep
  have hnext : Undisturbed (s.sent ph b txs) := h.of_step (by simp [hq]) hstep
  have hvalid : (s.sent ph b txs).env.rxAnswer = some v := by simp [State.sent, Env.rxAnswer, hrx]
  exact ⟨b, hb, (run_succ_of_step hstep).trans (run_one (hnext.step_rx (s := s.sent ph b txs) ho rfl hvalid))⟩

/-! ## The exchanges of a phase that captures no length -/

/-- The octets of a list stored at rising indices. -/
def Memory.writeFrom (m : Memory) (i : Nat) : List Octet → Memory
  | [] => m
  | v :: vs => Memory.writeFrom (m.write i v) (i + 1) vs

/-- What the exchanges of a phase make of the destination: the payload of `RECV` is stored (R136). -/
def stored (o : Op) (ph : Phase) (m : Memory) (i : Nat) (vs : List Octet) : Memory :=
  if o = .recv ∧ ph = .pay then m.writeFrom i vs else m

/-- Outside the Length phase of `RECV`, an octet that came back is dropped, or stored at `CNT`. -/
theorem takeOctet_eq (hx : s.op = .recv → ph ≠ .len) (v : Octet) :
    takeOctet s ph v = { s with env := s.env.popRx, trace := .rx v :: s.trace, cnt := s.cnt + 1, seq := .phase ph .tx
                                dst := stored s.op ph s.dst s.cnt.toNat [v] } := by
  by_cases ho : s.op = .recv
  · cases ph with
    | hdr => simp [takeOctet, ho, recvTake, stored, State.rxTake]
    | len => exact absurd rfl (hx ho)
    | pay => simp [takeOctet, ho, recvTake, stored, State.rxTake, Memory.writeFrom]
  · simp [takeOctet, ho, stored, State.rxTake]

/-- `s` after the exchanges of a phase with `vs` coming back, `CNT` having reached `n`. -/
def State.exchanged (s : State) (ph : Phase) (vs : List Octet) (txs : List Bool) (rxs : List (Option Octet)) (c : Bool) (n : BitVec 15) :
    State :=
  { s with env := { s.env with tx := txs, rx := rxs }
           trace := (exchangeEvents ((phaseOctets s ph).drop s.cnt.toNat) vs).reverse ++ s.trace
           csAct := c, cnt := n, dst := stored s.op ph s.dst s.cnt.toNat vs }

@[simp] theorem exchangeEvents_nil (bs : List Octet) : exchangeEvents bs [] = [] := by cases bs <;> rfl

/-- The octet at `CNT` is the first of those left to be sent. -/
theorem drop_of_getElem? {bs : List Octet} {b : Octet} {i : Nat} (h : bs[i]? = some b) : bs.drop i = b :: bs.drop (i + 1) := by
  obtain ⟨hi, rfl⟩ := List.getElem?_eq_some_iff.mp h
  exact List.drop_eq_getElem_cons hi

/-- Outside the Length phase of `RECV`, an exchange is of one octet of the phase. -/
theorem Undisturbed.run_exchange_one (h : Undisturbed s) (ho : s.op = .send ∨ s.op = .recv) (hx : s.op = .recv → ph ≠ .len)
    (hq : s.seq = .phase ph .tx) (hc : s.cnt.toNat < s.octetCount ph) (htx : s.env.tx = true :: txs) (hrx : s.env.rx = some v :: rxs) :
    Host.Core.run Sys2Proof.core 2 s = .next (s.exchanged ph [v] txs rxs true (s.cnt + 1)) := by
  obtain ⟨b, hb, hrun⟩ := h.run_exchange ho hq hc htx hrx
  have hdrop := drop_of_getElem? hb
  rw [hrun, takeOctet_eq (s := s.sent ph b txs) hx]
  simp [State.sent, State.exchanged, Env.popRx, hrx, hdrop, exchangeEvents, ← hq]

/-- One exchange and then the exchanges of the other octets are the exchanges of all. -/
theorem exchanged_exchanged {vs : List Octet} {b : Octet} {txs' : List Bool} {rxs' : List (Option Octet)} {c : Bool} {n : BitVec 15}
    (hb : (phaseOctets s ph)[s.cnt.toNat]? = some b) (hsucc : (s.cnt + 1).toNat = s.cnt.toNat + 1) :
    (s.exchanged ph [v] txs' rxs' true (s.cnt + 1)).exchanged ph vs txs rxs c n = s.exchanged ph (v :: vs) txs rxs c n := by
  have hdrop := drop_of_getElem? hb
  have htrace : (exchangeEvents ((phaseOctets s ph).drop (s.cnt + 1).toNat) vs).reverse ++
      ((exchangeEvents ((phaseOctets s ph).drop s.cnt.toNat) [v]).reverse ++ s.trace) =
      (exchangeEvents ((phaseOctets s ph).drop s.cnt.toNat) (v :: vs)).reverse ++ s.trace := by
    rw [hsucc, hdrop]
    simp [exchangeEvents]
  have hdst : stored s.op ph (stored s.op ph s.dst s.cnt.toNat [v]) (s.cnt + 1).toNat vs = stored s.op ph s.dst s.cnt.toNat (v :: vs) := by
    rw [hsucc]
    unfold stored
    split <;> rfl
  rw [State.exchanged.eq_def s ph (v :: vs), ← htrace, ← hdst]
  rfl

/-- Every octet that is left is exchanged, two steps each (R186). -/
theorem Undisturbed.run_exchanges {vs : List Octet} (h : Undisturbed s) (ho : s.op = .send ∨ s.op = .recv) (hx : s.op = .recv → ph ≠ .len)
    (hq : s.seq = .phase ph .tx) (hc : s.cnt.toNat + vs.length = s.octetCount ph)
    (htx : s.env.tx = List.replicate vs.length true ++ txs) (hrx : s.env.rx = vs.map some ++ rxs) :
    ∃ c n, n.toNat = s.octetCount ph ∧
      Host.Core.run Sys2Proof.core (2 * vs.length) s = .next (s.exchanged ph vs txs rxs c n) := by
  induction vs generalizing s with
  | nil =>
    have htx' : s.env.tx = txs := htx
    have hrx' : s.env.rx = rxs := hrx
    refine ⟨s.csAct, s.cnt, hc, ?_⟩
    simp [Host.Core.run, State.exchanged, stored, Memory.writeFrom, ← htx', ← hrx']
  | cons v vs ih =>
    have hlt : s.cnt.toNat < s.octetCount ph := by rw [← hc]; simp
    have hsucc : (s.cnt + 1).toNat = s.cnt.toNat + 1 := State.cnt_succ_toNat hlt
    obtain ⟨b, hb, -⟩ := h.run_exchange ho hq hlt htx hrx
    have hrun := h.run_exchange_one ho hx hq hlt htx hrx
    have hnext := h.of_run (by simp [hq]) hrun
    have hcount : (s.cnt + 1).toNat + vs.length = s.octetCount ph := by rw [hsucc, ← hc, List.length_cons]; omega
    obtain ⟨c, n, hn, hrest⟩ := ih hnext ho hx hq hcount rfl rfl
    refine ⟨c, n, hn, ?_⟩
    rw [List.length_cons, Nat.mul_succ, Nat.add_comm, run_trans hrun, hrest, exchanged_exchanged hb hsucc]

/-! ## The boundary of a phase -/

/-- What the operation in progress does after a Ready sample. -/
def afterReady (o : Op) (ph : Phase) : State → State := if o = .recv then recvAfter ph else sendAfter ph

/-- At a boundary the step of the machine is the operation's own. -/
theorem Undisturbed.step_boundary (h : Undisturbed s) (ho : s.op = .send ∨ s.op = .recv) (hb : AtBoundary ph s)
    (hsend : s.op = .send → sendStep s = .next t) (hrecv : s.op = .recv → recvStep s = .next t) : step s = .next t := by
  rcases ho with ho | ho
  · exact h.step_of_runsTo (send_runsTo_boundary h.port ho hb (hsend ho))
  · exact h.step_of_runsTo (recv_runsTo_boundary h.port ho hb (hrecv ho))

theorem Undisturbed.step_end (h : Undisturbed s) (ho : s.op = .send ∨ s.op = .recv) (hq : s.seq = .phase ph .tx)
    (hc : s.octetCount ph ≤ s.cnt.toNat) : step s = .next (s.goto (.phase ph .rel)) :=
  h.step_boundary ho (Or.inl ⟨hq, hc⟩) (fun _ => sendStep_at_end hq hc) (fun _ => recvStep_at_end hq hc)

theorem Undisturbed.step_rel (h : Undisturbed s) (ho : s.op = .send ∨ s.op = .recv) (hq : s.seq = .phase ph .rel) :
    step s = .next (s.relStep ph) :=
  h.step_boundary ho (Or.inr (Or.inl hq)) (fun _ => sendStep_at_rel hq) (fun _ => recvStep_at_rel hq)

theorem Undisturbed.step_dly (h : Undisturbed s) (ho : s.op = .send ∨ s.op = .recv) (hq : s.seq = .phase ph .dly) :
    step s = .next (s.dlyStep ph) :=
  h.step_boundary ho (Or.inr (Or.inr (Or.inl hq))) (fun _ => sendStep_at_dly hq) (fun _ => recvStep_at_dly hq)

theorem Undisturbed.step_hs (h : Undisturbed s) (ho : s.op = .send ∨ s.op = .recv) (hq : s.seq = .phase ph .hs) :
    step s = .next (s.hsStep (afterReady s.op ph)) := by
  refine h.step_boundary ho (Or.inr (Or.inr (Or.inr hq))) (fun ho => ?_) (fun ho => ?_)
  · simp [sendStep, hq, afterReady, ho]
  · simp [recvStep, hq, afterReady, ho]

/-- `s` at the end of the boundary of a phase: chip-select released, the settle delay past, the sample Ready, and `CNT` clear. -/
def State.settled (s : State) (ph : Phase) (hss : List Bool) : State :=
  { s with env := { s.env with hs := hss }, trace := [.hs true, .dly s.par.settleIters, .csrel] ++ s.trace, csAct := false, cnt := 0
           seq := .phase ph .hs }

/-- With the octets of a phase through and the slave ready at once, the boundary takes four steps (R176). -/
theorem Undisturbed.run_boundary (h : Undisturbed s) (ho : s.op = .send ∨ s.op = .recv) (hq : s.seq = .phase ph .tx)
    (hc : s.octetCount ph ≤ s.cnt.toNat) (hhs : s.env.hs = true :: hss) :
    Host.Core.run Sys2Proof.core 4 s = .next (afterReady s.op ph (s.settled ph hss)) := by
  have e1 := h.step_end ho hq hc
  have h1 := h.of_step (by simp [hq]) e1
  have e2 := h1.step_rel ho rfl
  have h2 := h1.of_step nofun e2
  have e3 := h2.step_dly ho rfl
  have h3 := h2.of_step nofun e3
  have e4 := h3.step_hs ho rfl
  have hready : (((s.goto (.phase ph .rel)).relStep ph).dlyStep ph).env.hsSample = true := by simp [Env.hsSample, hhs]
  rw [State.hsStep_of_ready hready] at e4
  have hsettled : { (((s.goto (.phase ph .rel)).relStep ph).dlyStep ph).sample with cnt := 0 } = s.settled ph hss := by
    simp [State.settled, State.sample, State.dlyStep, State.relStep, State.goto, State.emit, Env.hsSample, Env.popHs, hhs]
  rw [hsettled] at e4
  rw [run_succ_of_step e1, run_succ_of_step e2, run_succ_of_step e3]
  exact run_one e4

/-! ## A whole phase -/

/-- `s` after the exchanges of a phase from its first octet, and its boundary up to the Ready sample. -/
def State.phaseDone (s : State) (ph : Phase) (vs : List Octet) (txs : List Bool) (rxs : List (Option Octet)) (hss : List Bool) : State :=
  { s with env := { s.env with tx := txs, rx := rxs, hs := hss }
           trace := (phaseEvents s.par.settleIters (phaseOctets s ph) vs).reverse ++ s.trace
           csAct := false, cnt := 0, seq := .phase ph .hs, dst := stored s.op ph s.dst 0 vs }

/-- A phase that captures no length, against a slave that is ready at once: two steps for each octet and four for the boundary. -/
theorem Undisturbed.run_phase {vs : List Octet} (h : Undisturbed s) (ho : s.op = .send ∨ s.op = .recv) (hx : s.op = .recv → ph ≠ .len)
    (hq : s.seq = .phase ph .tx) (hc : s.cnt = 0) (hlen : vs.length = s.octetCount ph)
    (htx : s.env.tx = List.replicate vs.length true ++ txs) (hrx : s.env.rx = vs.map some ++ rxs) (hhs : s.env.hs = true :: hss) :
    Host.Core.run Sys2Proof.core (2 * vs.length + 4) s = .next (afterReady s.op ph (s.phaseDone ph vs txs rxs hss)) := by
  have hzero : s.cnt.toNat = 0 := by rw [hc]; rfl
  obtain ⟨c, n, hn, hrun⟩ := h.run_exchanges ho hx hq (by rw [hzero, hlen, Nat.zero_add]) htx hrx
  have hnext := h.of_run (by simp [hq]) hrun
  have hend := hnext.run_boundary ho hq (Nat.le_of_eq hn.symm) hhs
  rw [run_trans hrun, hend]
  have hdone : (s.exchanged ph vs txs rxs c n).settled ph hss = s.phaseDone ph vs txs rxs hss := by
    simp [State.settled, State.exchanged, State.phaseDone, phaseEvents, hzero]
  rw [hdone]
  rfl

end Sys2Proof.Machine

end

section
/-! A whole `SEND` against a slave that is ready at once (R117, R122): the mode step and three phases. -/

namespace Sys2Proof.Machine

variable {s t : State} {ph : Phase} {txs : List Bool} {rxs : List (Option Octet)} {hss : List Bool}

/-- A phase of `SEND`: what comes back is dropped, so the destination stays (R118, R175). -/
theorem Undisturbed.run_phase_send {vs : List Octet} (h : Undisturbed s) (ho : s.op = .send) (hq : s.seq = .phase ph .tx) (hc : s.cnt = 0)
    (hlen : vs.length = s.octetCount ph) (htx : s.env.tx = List.replicate vs.length true ++ txs) (hrx : s.env.rx = vs.map some ++ rxs)
    (hhs : s.env.hs = true :: hss) :
    Host.Core.run Sys2Proof.core (2 * vs.length + 4) s = .next (sendAfter ph { s with
      env := { s.env with tx := txs, rx := rxs, hs := hss }
      trace := (phaseEvents s.par.settleIters (sendOctets s ph) vs).reverse ++ s.trace
      csAct := false, cnt := 0, seq := .phase ph .hs }) := by
  have hrun := h.run_phase (Or.inl ho) (by simp [ho]) hq hc hlen htx hrx hhs
  simpa [afterReady, State.phaseDone, phaseOctets, stored, ho] using hrun

/-- A list of `8 + n` elements is two of four and one of `n`. -/
theorem exists_append_of_length {α : Type} {n : Nat} {xs : List α} (h : xs.length = 8 + n) :
    ∃ a b c, xs = a ++ (b ++ c) ∧ a.length = 4 ∧ b.length = 4 ∧ c.length = n := by
  refine ⟨xs.take 4, (xs.drop 4).take 4, (xs.drop 4).drop 4, ?_, ?_, ?_, ?_⟩
  · simp only [List.take_append_drop]
  · simp [h]
    omega
  · simp [h]
    omega
  · simp [h]

/-- The transmit slots of the three phases. -/
theorem replicate_phases (n : Nat) (txs : List Bool) : List.replicate (8 + n) true ++ txs =
    List.replicate 4 true ++ (List.replicate 4 true ++ (List.replicate n true ++ txs)) := by
  rw [show 8 + n = 4 + (4 + n) by omega, List.replicate_add, List.replicate_add, List.append_assoc, List.append_assoc]

end Sys2Proof.Machine

open Sys2Proof Sys2Proof.Machine

/-- Settles O58: the mode step, then `run_phase_send` for each of the three phases. -/
theorem sendRunsToCompletion : Obligations.SendRunsToCompletion := by
  unfold Obligations.SendRunsToCompletion
  intro s ins txs rxs hss hinv hp hh ho hq hlen htx hrx hhs
  obtain ⟨a, b, c, rfl, ha, hb, hc⟩ := exists_append_of_length hlen
  rw [replicate_phases] at htx
  rw [List.map_append, List.map_append, List.append_assoc, List.append_assoc] at hrx
  have hhs' : s.env.hs = true :: true :: true :: hss := hhs
  have e0 : step s = .next (sendModeStep s) := step_at_mode (supportsReceive_of_inv hinv) hp hh ho hq
  have h1 : Undisturbed (sendModeStep s) := ⟨hinv.of_step e0, hp, hh⟩
  have e1 := h1.run_phase_send (ph := .hdr) (vs := a) ho rfl rfl ha (by rw [ha]; exact htx) hrx hhs'
  have h2 := h1.of_run nofun e1
  have e2 := h2.run_phase_send (ph := .len) (vs := b) ho rfl rfl hb (by rw [hb]; rfl) rfl rfl
  have h3 := h2.of_run nofun e2
  have e3 := h3.run_phase_send (ph := .pay) (vs := c) ho rfl rfl
    (by rw [State.octetCount_pay_of_send (by exact ho)]; exact hc) (by rw [hc]; rfl) rfl rfl
  have hsteps : 2 * (8 + (sendLen s.par s.msg).toNat) + 13 =
      1 + (2 * a.length + 4 + (2 * b.length + 4 + (2 * c.length + 4))) := by omega
  rw [hsteps, run_trans (run_one e0), run_trans e1, run_trans e2]
  refine ⟨_, e3, rfl, rfl, rfl, rfl, ?_, rfl, rfl, rfl, rfl⟩
  have hevents : sendEvents s.par.settleIters (sendLen s.par s.msg) s.msg (a ++ (b ++ c)) =
      phaseEvents s.par.settleIters (encode .hdrSend) a ++ phaseEvents s.par.settleIters (encLen (sendLen s.par s.msg)) b ++
        phaseEvents s.par.settleIters (s.msg.take (sendLen s.par s.msg).toNat) c := by
    have hdrop : (a ++ (b ++ c)).drop 8 = c := by rw [← List.append_assoc]; exact List.drop_left' (by simp [ha, hb])
    simp only [sendEvents, List.take_left' ha, List.drop_left' ha, List.take_left' hb, hdrop]
  rw [hevents, List.reverse_append, List.reverse_append, List.append_assoc, List.append_assoc]
  rfl

end

section
/-! A whole `RECV` of one cycle against a slave that is ready at once (R135 to R140): three phases, post-processing, and the loop sample; then what
every index of the destination holds. -/

namespace Sys2Proof.Machine

variable {s t : State} {ph : Phase} {txs : List Bool} {rxs : List (Option Octet)} {hss : List Bool} {v : Octet}

/-! ## The phases of a cycle -/

/-- A phase of `RECV` that captures no length: the payload is stored from index 0, what the Header frame returns is dropped. -/
theorem Undisturbed.run_phase_recv {vs : List Octet} (h : Undisturbed s) (ho : s.op = .recv) (hx : ph ≠ .len) (hq : s.seq = .phase ph .tx)
    (hc : s.cnt = 0) (hlen : vs.length = s.octetCount ph) (htx : s.env.tx = List.replicate vs.length true ++ txs)
    (hrx : s.env.rx = vs.map some ++ rxs) (hhs : s.env.hs = true :: hss) :
    Host.Core.run Sys2Proof.core (2 * vs.length + 4) s = .next (recvAfter ph { s with
      env := { s.env with tx := txs, rx := rxs, hs := hss }
      trace := (phaseEvents s.par.settleIters (recvOctets s ph) vs).reverse ++ s.trace
      csAct := false, cnt := 0, seq := .phase ph .hs, dst := if ph = .pay then s.dst.writeFrom 0 vs else s.dst }) := by
  have hrun := h.run_phase (Or.inr ho) (fun _ => hx) hq hc hlen htx hrx hhs
  simpa [afterReady, State.phaseDone, phaseOctets, stored, ho] using hrun

/-- `s` after an octet of the returned Length frame was exchanged against filler and captured. -/
def State.captured (s : State) (v : Octet) (txs : List Bool) (rxs : List (Option Octet)) : State :=
  { s with env := { s.env with tx := txs, rx := rxs }, trace := [.rx v, .tx Config.filler] ++ s.trace, csAct := true, cnt := s.cnt + 1
           seq := .phase .len .tx, fb := s.fb.set s.cnt.toNat v
           len := if s.cnt.toNat = 3 then decLen (s.fb.set s.cnt.toNat v).b0 (s.fb.set s.cnt.toNat v).b1 else s.len }

/-- An exchange of the Length phase of `RECV` takes two steps (R133). -/
theorem Undisturbed.run_capture (h : Undisturbed s) (ho : s.op = .recv) (hq : s.seq = .phase .len .tx) (hc : s.cnt.toNat < 4)
    (htx : s.env.tx = true :: txs) (hrx : s.env.rx = some v :: rxs) :
    Host.Core.run Sys2Proof.core 2 s = .next (s.captured v txs rxs) := by
  obtain ⟨b, hb, hrun⟩ := h.run_exchange (ph := .len) (Or.inr ho) hq hc htx hrx
  have hfiller : b = Config.filler := by
    have hsent : (List.replicate 4 Config.filler)[s.cnt.toNat]? = some b := by simpa [phaseOctets, ho, recvOctets] using hb
    exact List.eq_of_mem_replicate (List.mem_of_getElem? hsent)
  have htake : takeOctet (s.sent .len b txs) .len v = s.captured v txs rxs := by
    simp [takeOctet, State.sent, ho, recvTake, State.captureLen, State.rxTake, State.captured, Env.popRx, hrx, hfiller]
  rw [hrun, htake]

/-- The Length phase of `RECV`: the frame is in the buffer and its length in `LEN` (R132, R133). -/
theorem Undisturbed.run_phase_capture {b0 b1 b2 b3 : Octet} (h : Undisturbed s) (ho : s.op = .recv) (hq : s.seq = .phase .len .tx)
    (hc : s.cnt = 0) (htx : s.env.tx = List.replicate 4 true ++ txs) (hrx : s.env.rx = [b0, b1, b2, b3].map some ++ rxs)
    (hhs : s.env.hs = true :: hss) :
    Host.Core.run Sys2Proof.core 12 s = .next (recvAfter .len { s with
      env := { s.env with tx := txs, rx := rxs, hs := hss }
      trace := (phaseEvents s.par.settleIters (recvOctets s .len) [b0, b1, b2, b3]).reverse ++ s.trace
      csAct := false, cnt := 0, seq := .phase .len .hs, fb := ⟨b0, b1, b2, b3⟩, len := decLen b0 b1 }) := by
  have htx' : s.env.tx = true :: true :: true :: true :: txs := htx
  have hrx' : s.env.rx = some b0 :: some b1 :: some b2 :: some b3 :: rxs := hrx
  have e1 := h.run_capture ho hq (by rw [hc]; decide) htx' hrx'
  have h1 := h.of_run (by simp [hq]) e1
  have e2 := h1.run_capture ho rfl (by simp [State.captured, hc]) rfl rfl
  have h2 := h1.of_run nofun e2
  have e3 := h2.run_capture ho rfl (by simp [State.captured, hc]) rfl rfl
  have h3 := h2.of_run nofun e3
  have e4 := h3.run_capture ho rfl (by simp [State.captured, hc]) rfl rfl
  have h4 := h3.of_run nofun e4
  have e5 := h4.run_boundary (Or.inr ho) rfl (by simp [State.captured, hc, State.octetCount, Config.frameLen]) hhs
  rw [show 12 = 2 + (2 + (2 + (2 + 4))) from rfl, run_trans e1, run_trans e2, run_trans e3, run_trans e4, e5]
  simp [State.captured, State.settled, afterReady, ho, hc, recvOctets, phaseEvents, exchangeEvents, FrameBuf.set]

/-- Post-processing, and a loop sample that is not Ready, end the operation in two steps (R137 to R139). -/
theorem Undisturbed.run_finish (h : Undisturbed s) (ho : s.op = .recv) (hq : s.seq = .post) (hhs : s.env.hs = false :: hss) :
    Host.Core.run Sys2Proof.core 2 s = .next (State.complete { recvPostStep s with
      env := { s.env with hs := hss }, trace := .hs false :: s.trace } .recvDone) := by
  have e1 : step s = .next (recvPostStep s) :=
    h.step_of_runsTo ⟨.recv, by simp [engineFetch, ho, hq], exec_recv_at_post h.port ho hq⟩
  have h1 := h.of_step (by simp [hq]) e1
  have e2 : step (recvPostStep s) = .next (recvLoopStep (recvPostStep s)) :=
    h1.step_of_runsTo ⟨.recv, by simp [engineFetch, recvPostStep, ho], exec_recv_at_loop h1.port ho rfl⟩
  rw [run_succ_of_step e1, run_one e2]
  simp [recvLoopStep, recvPostStep, State.sample, State.emit, Env.hsSample, Env.popHs, hhs]

/-! ## The destination after a cycle -/

theorem Memory.wf_writeFrom {m : Memory} (h : Memory.wf m = true) (i : Nat) (vs : List Octet) : Memory.wf (m.writeFrom i vs) = true := by
  induction vs generalizing m i with
  | nil => exact h
  | cons v vs ih => exact ih (Memory.wf_write i v h) (i + 1)

/-- Octets stored at rising indices leave those below as they are. -/
theorem Memory.read_writeFrom_below {m : Memory} {i j : Nat} (h : j < i) (vs : List Octet) : (m.writeFrom i vs).read j = m.read j := by
  induction vs generalizing m i with
  | nil => rfl
  | cons v vs ih =>
    rw [Memory.writeFrom, ih (Nat.lt_succ_of_lt h)]
    exact Memory.read_write_other v (Nat.ne_of_gt h)

/-- Octet `k` of those stored from index `i` stands at index `i + k`; above the last the memory is as it was. -/
theorem Memory.read_writeFrom {m : Memory} (h : Memory.wf m = true) (i k : Nat) (vs : List Octet) :
    (m.writeFrom i vs).read (i + k) = if k < vs.length then vs.getD k 0 else m.read (i + k) := by
  induction vs generalizing m i k with
  | nil => simp [Memory.writeFrom]
  | cons v vs ih =>
    cases k with
    | zero => simp [Memory.writeFrom, Memory.read_writeFrom_below, Memory.read_write_same i v h]
    | succ k =>
      have hother : (m.write i v).read (i + 1 + k) = m.read (i + 1 + k) := Memory.read_write_other v (by omega)
      have hread := ih (Memory.wf_write i v h) (i + 1) k
      rw [hother] at hread
      rw [show i + (k + 1) = i + 1 + k by omega]
      simpa [Memory.writeFrom] using hread

/-- Every index of the destination once the payload is stored and processed (R136 to R138). -/
theorem read_postProcess_writeFrom {m : Memory} (h : Memory.wf m = true) {len : Len15} {maxl : BitVec Config.maxlW} {pay : List Octet}
    (hlen : pay.length = min len.toNat maxl.toNat) (i : Nat) :
    (postProcess (m.writeFrom 0 pay) len maxl).read i = cycleOctet m len maxl pay i := by
  have hread := Memory.read_writeFrom h 0 i pay
  rw [Nat.zero_add, hlen] at hread
  rw [read_postProcess (Memory.wf_writeFrom h 0 pay), hread, cycleOctet]
  by_cases hi : i < min len.toNat maxl.toNat
  · have hne : i ≠ len.toNat := by omega
    simp [hi, hne, isEol_iff, Config.space]
  · have hnot : ¬ (len.toNat < maxl.toNat ∧ i < len.toNat - 2) := by omega
    simp only [hi, if_false]
    rw [if_neg (fun hcond => hnot ⟨hcond.1, hcond.2.2.1⟩)]
    exact if_congr and_comm rfl rfl

end Sys2Proof.Machine

open Sys2Proof Sys2Proof.Machine

/-- Settles O59: two plain phases with the capture of the length between them, then post-processing and the loop sample. -/
theorem recvCycleRunsToCompletion : Obligations.RecvCycleRunsToCompletion := by
  unfold Obligations.RecvCycleRunsToCompletion
  intro s hdr pay b0 b1 b2 b3 txs rxs hss hinv hp hh ho hq hc hhdr hpay htx hrx hhs
  have h0 : Undisturbed s := ⟨hinv, hp, hh⟩
  rw [replicate_phases] at htx
  rw [List.map_append, List.map_append, List.append_assoc, List.append_assoc] at hrx
  have hhs' : s.env.hs = true :: true :: true :: false :: hss := hhs
  have e1 := h0.run_phase_recv (ph := .hdr) (vs := hdr) ho nofun hq hc hhdr (by rw [hhdr]; exact htx) hrx hhs'
  have h1 := h0.of_run (by simp [hq]) e1
  have e2 := h1.run_phase_capture ho rfl rfl rfl rfl rfl
  have h2 := h1.of_run nofun e2
  have hcount : pay.length = (payloadCount (decLen b0 b1) s.maxl).toNat := hpay.trans (payloadCount_toNat _ _).symm
  have e3 := h2.run_phase_recv (ph := .pay) (vs := pay) ho nofun rfl rfl
    (by rw [State.octetCount_pay_of_recv (by exact ho)]; exact hcount) rfl rfl rfl
  have h3 := h2.of_run nofun e3
  have e4 := h3.run_finish ho rfl rfl
  have hsteps : 2 * (8 + pay.length) + 14 = 2 * hdr.length + 4 + (12 + (2 * pay.length + 4 + 2)) := by omega
  rw [hsteps, run_trans e1, run_trans e2, run_trans e3]
  refine ⟨_, e4, rfl, rfl, rfl, rfl, rfl, ?_, fun i => read_postProcess_writeFrom hinv.dst hpay i⟩
  rw [cycleEvents, hcount, List.reverse_append, List.reverse_append, List.append_assoc, List.append_assoc]
  rfl

end

section
/-! A `SEND` whose transmit slots, returned octets and Ready samples come with any number of stalls between them (R182): what is reached from one
step of a phase, then from its exchanges and its boundary. Each stall uses up one of the answers listed, so the induction is over these lists. -/

namespace Sys2Proof.Machine

variable {s t u : State} {ph : Phase} {len : Len15} {a b c : Nat}

/-- `t` is the state after some number of steps from `s`. -/
def Reaches (s t : State) : Prop := ∃ k, Host.Core.run Sys2Proof.core k s = .next t

theorem Reaches.refl (s : State) : Reaches s s := ⟨0, rfl⟩

theorem Reaches.trans : Reaches s t → Reaches t u → Reaches s u
  | ⟨j, hj⟩, ⟨k, hk⟩ => ⟨j + k, (run_trans hj).trans hk⟩

theorem Reaches.of_step (e : step s = .next t) : Reaches s t := ⟨1, run_one e⟩

theorem Undisturbed.of_reaches (h : Undisturbed s) (hq : s.seq ≠ .mode) : Reaches s t → Undisturbed t
  | ⟨_, e⟩ => h.of_run hq e

/-- A `SEND` of length `len` for which the environment has at least `a` free slots, `b` octets and `c` Ready samples to come. -/
structure Supplied (len : Len15) (a b c : Nat) (s : State) : Prop where
  op : s.op = .send
  len : s.len = len
  tx : a ≤ s.env.tx.count true
  rx : b ≤ s.env.rx.countP Option.isSome
  hs : c ≤ s.env.hs.count true

/-! ## One step with its stalls -/

theorem Env.popTx_of_cons {e : Env} {r : Bool} {l : List Bool} (h : e.tx = r :: l) : e.popTx = { e with tx := l } := by
  simp [Env.popTx, h]

theorem Env.popRx_of_cons {e : Env} {r : Option Octet} {l : List (Option Octet)} (h : e.rx = r :: l) : e.popRx = { e with rx := l } := by
  simp [Env.popRx, h]

theorem Env.popHs_of_cons {e : Env} {r : Bool} {l : List Bool} (h : e.hs = r :: l) : e.popHs = { e with hs := l } := by
  simp [Env.popHs, h]

/-- With a free slot to come, octet `CNT` is sent in the end. -/
theorem Undisturbed.reaches_sent (h : Undisturbed s) (hs : Supplied len (a + 1) b c s) (hq : s.seq = .phase ph .tx)
    (hc : s.cnt.toNat < s.octetCount ph) : ∃ t, Reaches s t ∧ Supplied len a b c t ∧ t.seq = .phase ph .rx ∧ t.cnt = s.cnt := by
  obtain ⟨l, hl⟩ : ∃ l, s.env.tx = l := ⟨_, rfl⟩
  induction l generalizing s with
  | nil => simpa [hl] using hs.tx
  | cons r l ih =>
    obtain ⟨d, -, hr⟩ := send_runsTo_tx h.inv hs.op hq hc
    have hstep := h.step_of_runsTo hr
    have htx : a + 1 ≤ (r :: l).count true := hl ▸ hs.tx
    cases r with
    | true =>
      rw [State.txStep_of_ready (by simp [Env.txReady, hl]), Env.popTx_of_cons hl] at hstep
      exact ⟨_, .of_step hstep, ⟨hs.op, hs.len, by simpa using htx, hs.rx, hs.hs⟩, rfl, rfl⟩
    | false =>
      rw [State.txStep_of_not_ready (by simp [Env.txReady, hl]), Env.popTx_of_cons hl] at hstep
      obtain ⟨t, hreach, rest⟩ := ih (h.of_step (by simp [hq]) hstep) ⟨hs.op, hs.len, by simpa using htx, hs.rx, hs.hs⟩ hq hc rfl
      exact ⟨t, (Reaches.of_step hstep).trans hreach, rest⟩

/-- With an octet to come, one is taken in the end. -/
theorem Undisturbed.reaches_taken (h : Undisturbed s) (hs : Supplied len a (b + 1) c s) (hq : s.seq = .phase ph .rx) :
    ∃ t, Reaches s t ∧ Supplied len a b c t ∧ t.seq = .phase ph .tx ∧ t.cnt = s.cnt + 1 := by
  obtain ⟨l, hl⟩ : ∃ l, s.env.rx = l := ⟨_, rfl⟩
  induction l generalizing s with
  | nil => simpa [hl] using hs.rx
  | cons r l ih =>
    have hstep := h.step_of_runsTo (send_runsTo_rx h.inv hs.op hq)
    have hrx : b + 1 ≤ (r :: l).countP Option.isSome := hl ▸ hs.rx
    cases r with
    | some v =>
      rw [State.rxDiscard_of_some (v := v) (by simp [Env.rxAnswer, hl]), State.rxTake, Env.popRx_of_cons hl] at hstep
      exact ⟨_, .of_step hstep, ⟨hs.op, hs.len, hs.tx, by simpa using hrx, hs.hs⟩, rfl, rfl⟩
    | none =>
      rw [State.rxDiscard_of_none (by simp [Env.rxAnswer, hl]), State.rxStall, Env.popRx_of_cons hl] at hstep
      obtain ⟨t, hreach, rest⟩ := ih (h.of_step (by simp [hq]) hstep) ⟨hs.op, hs.len, hs.tx, by simpa using hrx, hs.hs⟩ hq rfl
      exact ⟨t, (Reaches.of_step hstep).trans hreach, rest⟩

/-- With a Ready sample to come, `SEND` goes on after the phase in the end. -/
theorem Undisturbed.reaches_after (h : Undisturbed s) (hs : Supplied len a b (c + 1) s) (hq : s.seq = .phase ph .hs) :
    ∃ t, Reaches s (sendAfter ph t) ∧ Supplied len a b c t ∧ t.cnt = 0 := by
  obtain ⟨l, hl⟩ : ∃ l, s.env.hs = l := ⟨_, rfl⟩
  induction l generalizing s with
  | nil => simpa [hl] using hs.hs
  | cons r l ih =>
    have hstep := h.step_hs (Or.inl hs.op) hq
    have hhs : c + 1 ≤ (r :: l).count true := hl ▸ hs.hs
    cases r with
    | true =>
      rw [State.hsStep_of_ready (by simp [Env.hsSample, hl]), State.sample, Env.popHs_of_cons hl, afterReady, hs.op] at hstep
      exact ⟨_, .of_step hstep, ⟨hs.op, hs.len, hs.tx, hs.rx, by simpa using hhs⟩, rfl⟩
    | false =>
      rw [State.hsStep_of_not_ready (by simp [Env.hsSample, hl]), State.sample, Env.popHs_of_cons hl] at hstep
      obtain ⟨t, hreach, rest⟩ := ih (h.of_step (by simp [hq]) hstep) ⟨hs.op, hs.len, hs.tx, hs.rx, by simpa using hhs⟩ hq rfl
      exact ⟨t, (Reaches.of_step hstep).trans hreach, rest⟩

/-! ## A phase with its stalls -/

/-- The octet count of a phase of `SEND` is known from the length. -/
theorem Supplied.octetCount_eq (hs : Supplied len a b c s) {a' b' c' : Nat} (ht : Supplied len a' b' c' t) :
    t.octetCount ph = s.octetCount ph := by
  cases ph with
  | hdr | len => rfl
  | pay => rw [State.octetCount_pay_of_send ht.op, State.octetCount_pay_of_send hs.op, ht.len, hs.len]

/-- With a slot and an octet to come for each of the `n` octets left, all are exchanged in the end. -/
theorem Undisturbed.reaches_end {n : Nat} (h : Undisturbed s) (hs : Supplied len (n + a) (n + b) c s) (hq : s.seq = .phase ph .tx)
    (hc : s.cnt.toNat + n = s.octetCount ph) :
    ∃ t, Reaches s t ∧ Supplied len a b c t ∧ t.seq = .phase ph .tx ∧ t.octetCount ph ≤ t.cnt.toNat := by
  induction n generalizing s with
  | zero =>
    rw [Nat.zero_add, Nat.zero_add] at hs
    exact ⟨s, .refl s, hs, hq, Nat.le_of_eq hc.symm⟩
  | succ n ih =>
    have hlt : s.cnt.toNat < s.octetCount ph := by omega
    rw [Nat.succ_add, Nat.succ_add] at hs
    obtain ⟨t, hst, ht, htq, htc⟩ := h.reaches_sent hs hq hlt
    have hundist : Undisturbed t := h.of_reaches (by simp [hq]) hst
    obtain ⟨u, htu, hu, huq, huc⟩ := hundist.reaches_taken ht htq
    have hcount : u.cnt.toNat + n = u.octetCount ph := by
      rw [huc, htc, State.cnt_succ_toNat hlt, hs.octetCount_eq hu]
      omega
    obtain ⟨w, huw, rest⟩ := ih (hundist.of_reaches (by simp [htq]) htu) hu huq hcount
    exact ⟨w, (hst.trans htu).trans huw, rest⟩

/-- A whole phase: its exchanges, the release, the settle delay, and samples until one is Ready. -/
theorem Undisturbed.reaches_next {n : Nat} (h : Undisturbed s) (hs : Supplied len (n + a) (n + b) (c + 1) s) (hq : s.seq = .phase ph .tx)
    (hc : s.cnt = 0) (hn : n = s.octetCount ph) : ∃ t, Reaches s (sendAfter ph t) ∧ Supplied len a b c t ∧ t.cnt = 0 := by
  obtain ⟨t, hst, ht, htq, htc⟩ := h.reaches_end hs hq (by rw [hc, hn]; exact Nat.zero_add _)
  have h0 : Undisturbed t := h.of_reaches (by simp [hq]) hst
  have e1 := h0.step_end (Or.inl ht.op) htq htc
  have h1 := h0.of_step (by simp [htq]) e1
  have e2 := h1.step_rel (Or.inl ht.op) rfl
  have h2 := h1.of_step nofun e2
  have e3 := h2.step_dly (Or.inl ht.op) rfl
  have h3 := h2.of_step nofun e3
  have hsettled : Supplied len a b (c + 1) (((t.goto (.phase ph .rel)).relStep ph).dlyStep ph) := ⟨ht.op, ht.len, ht.tx, ht.rx, ht.hs⟩
  obtain ⟨u, hreach, rest⟩ := h3.reaches_after hsettled rfl
  exact ⟨u, hst.trans (((Reaches.of_step e1).trans (.of_step e2)).trans ((Reaches.of_step e3).trans hreach)), rest⟩

end Sys2Proof.Machine

open Sys2Proof Sys2Proof.Machine

/-- Settles O60: the mode step, then `reaches_next` for each of the three phases. -/
theorem fairSlaveLetsSendComplete : Obligations.FairSlaveLetsSendComplete := by
  unfold Obligations.FairSlaveLetsSendComplete
  intro s hinv hp hh ho hq htx hrx hhs
  have e0 : step s = .next (sendModeStep s) := step_at_mode (supportsReceive_of_inv hinv) hp hh ho hq
  have h0 : Undisturbed (sendModeStep s) := ⟨hinv.of_step e0, hp, hh⟩
  have htotal : 4 + (4 + ((sendLen s.par s.msg).toNat + 0)) = 8 + (sendLen s.par s.msg).toNat := by omega
  have hs0 : Supplied (sendLen s.par s.msg) (4 + (4 + ((sendLen s.par s.msg).toNat + 0))) (4 + (4 + ((sendLen s.par s.msg).toNat + 0))) 3
      (sendModeStep s) := ⟨ho, rfl, htotal.trans_le htx, htotal.trans_le hrx, hhs⟩
  obtain ⟨u1, r1, hu1, hc1⟩ := h0.reaches_next (ph := .hdr) hs0 rfl rfl rfl
  have h1 := h0.of_reaches nofun r1
  have hs1 : Supplied _ _ _ _ (sendAfter .hdr u1) := ⟨hu1.op, hu1.len, hu1.tx, hu1.rx, hu1.hs⟩
  obtain ⟨u2, r2, hu2, hc2⟩ := h1.reaches_next (ph := .len) hs1 rfl hc1 rfl
  have h2 := h1.of_reaches nofun r2
  have hs2 : Supplied _ _ _ _ (sendAfter .len u2) := ⟨hu2.op, hu2.len, hu2.tx, hu2.rx, hu2.hs⟩
  obtain ⟨u3, r3, -, -⟩ := h2.reaches_next (ph := .pay) hs2 rfl hc2 (by rw [State.octetCount_pay_of_send hs2.op, hs2.len])
  obtain ⟨k, hrun⟩ := (Reaches.of_step e0).trans ((r1.trans r2).trans r3)
  exact ⟨k, _, hrun, rfl, rfl⟩

end
